-- ==== Sys2Proof/Word.lean ====
section
/-! DEFINITION. The words of the block: the operation word and the widths its registers and pins are made of. -/

namespace Sys2Proof

/-- An operation word: exactly 8 bits (30_encoding.md R59, R62). Also one byte of the state image (20_memory.md R46). -/
abbrev Word := BitVec 8

/-- One BCD element of a digit set: a 4-bit field (10_state.md R17, 30_encoding.md R64). -/
abbrev Digit := BitVec 4

/-- A segment mask: bit 0 is segment A, bit 6 is segment G (30_encoding.md R66). -/
abbrev SegMask := BitVec 7

end Sys2Proof
end

