-- ==== Sys2Proof/Syntax.lean ====
section
/-! DEFINITION. The operations of the block, one constructor per row of spec/opcode_table.json, and their operands. -/

namespace Sys2Proof

/-- The operand `t` of SET_INCR, and the two digit sets by name (30_encoding.md R60, 10_state.md R17). -/
inductive Target where
  | clock
  | alarm
deriving DecidableEq, Repr

/-- The operand `f` of SET_INCR (30_encoding.md R60, 41_clock_alarm.md R82). -/
inductive Rate where
  | slow
  | fast
deriving DecidableEq, Repr

/-- The operand `i` of STROBE: a digit position 0..3, 0 being minuteUnits (30_encoding.md R60). Also a button slot. -/
abbrev Position := Fin 4

/-- The operations (30_encoding.md R59). The block has no instructions; these take their place (00_scope.md R2). -/
inductive Instr where
  | reset
  | tick
  | wakeEdge
  | wakeIsr
  | strobe (i : Position)
  | sweepEnd
  | debounce
  | dispatch
  | autoOff
  | alarmService
  | idleCheck
  | minuteIncr
  | setIncr (t : Target) (f : Rate)
  | evalAlarm
deriving DecidableEq, Repr

/-- Who performs an operation (00_scope.md R4). -/
inductive Agent where
  | powerOn
  | tickTimer
  | wakePin
  | wakeInterrupt
  | mainLoop
  /-- Performed only inside another operation. -/
  | subOperation
deriving DecidableEq, Repr

end Sys2Proof
end

