-- ==== Sys2Proof/Config.lean ====
section
/-! DEFINITION. What an implementation fixes (the parameters of 00_scope.md) and the free values the environment draws. -/

namespace Sys2Proof

/-- What a button does (00_scope.md R9). -/
inductive ButtonFunction where
  | mode
  | slow
  | fast
  | nofunc
deriving DecidableEq, Repr

/-- `P_BUTTON_MAP`: a total function from slot to button function, as plain data (00_scope.md R9). -/
structure ButtonMap where
  slot0 : ButtonFunction
  slot1 : ButtonFunction
  slot2 : ButtonFunction
  slot3 : ButtonFunction
deriving DecidableEq, Repr

/-- The parameters a rule of the spec depends on (00_scope.md R6 to R10). -/
structure Params where
  /-- `P_TICKS_PER_MINUTE`, N, 1 to 65535 (R6). -/
  ticksPerMinute : BitVec 16
  /-- `P_AUTO_OFF_TICKS`, A, 1 to 255 (R7). -/
  autoOffTicks : BitVec 8
  /-- `P_SLOW_DIVISOR`, K, 1 to 255 (R8). -/
  slowDivisor : BitVec 8
  /-- `P_BUTTON_MAP` (R9). -/
  buttonMap : ButtonMap
  /-- `P_WAKE_LATCH` (R10). -/
  wakeLatch : Bool
deriving DecidableEq, Repr

/-- The two input pins an operation reads (10_state.md R40). -/
inductive InputPin where
  | sense
  | wake
deriving DecidableEq, Repr

/-- The default button map (00_scope.md R9). -/
def Config.defaultButtonMap : ButtonMap :=
  { slot0 := .mode, slot1 := .slow, slot2 := .fast, slot3 := .nofunc }

/-- K less one. The spec gives K no value (00_scope.md R8, OPEN): nothing is known of it but its range
(log 5). -/
opaque Config.slowDivisorLessOne : Fin 255

/-- K, a value in 1 to 255 that nothing in Lean can evaluate (00_scope.md R8). -/
def Config.slowDivisor : BitVec 8 :=
  BitVec.ofNat 8 (Config.slowDivisorLessOne.val + 1)

/-- The parameters of the machine that begins at reset: the spec's defaults, and an open K (00_scope.md R6 to R10). -/
def Config.params : Params where
  ticksPerMinute := 120
  autoOffTicks := 21
  slowDivisor := Config.slowDivisor
  buttonMap := Config.defaultButtonMap
  wakeLatch := false

/-- The level of an input pin at the n-th free draw, where the environment has supplied none (43_display_mux.md R96,
log 3). -/
opaque Config.freeLevel : InputPin → Nat → Bool

/-- The choice among the enabled operations at the n-th free draw, where the environment has scheduled none
(20_memory.md R53, log 1). -/
opaque Config.freeChoice : Nat → Nat

/-- The slot of a button code that is no slot code: 10_state.md R29 defines `slot` on SLOT0..SLOT3 only. The argument is
the code's 3-bit value (30_encoding.md R69, log 16). -/
opaque Config.undefinedSlot : BitVec 3 → Position

end Sys2Proof
end

