-- ==== Sys2Proof/WellFormed.lean ====
section
/-! DEFINITION. Which parameters describe a block, and which operations a run may schedule. Operands need no check:
`Position`, `Target` and `Rate` hold exactly the values 30_encoding.md R60 admits. -/

namespace Sys2Proof

/-- The ranges of N, A and K (00_scope.md R6, R7, R8); their upper ends are the widths of the fields. -/
def Params.wf (p : Params) : Bool :=
  decide (p.ticksPerMinute ≠ 0) && decide (p.autoOffTicks ≠ 0) && decide (p.slowDivisor ≠ 0)

/-- Whether an operation may be performed on its own in a run: the sub-operations may not (30_encoding.md R63). -/
def Instr.performedInRun : Instr → Bool
  | .reset => true
  | .tick => true
  | .wakeEdge => true
  | .wakeIsr => true
  | .strobe _ => true
  | .sweepEnd => true
  | .debounce => true
  | .dispatch => true
  | .autoOff => true
  | .alarmService => true
  | .idleCheck => true
  | .minuteIncr => false
  | .setIncr _ _ => false
  | .evalAlarm => false

end Sys2Proof
end

