-- ==== Sys2Proof/Decode.lean ====
section
/-! DEFINITION. The decoder of operation words, total on every word, and the encoder after it (30_encoding.md R59 to R62). -/

namespace Sys2Proof

/-- What the decoder answers: an operation, or the verdict that the word names none (30_encoding.md R61). -/
inductive Verdict where
  | operation (i : Instr)
  | invalid (w : Word)
deriving DecidableEq, Repr

/-- A row of the operation-word map: a word belongs to it when its bits under `mask` are `pattern`. -/
structure OpcodeRow where
  pattern : Word
  mask : Word
  operation : Word → Instr

/-- The operand `i`, bits 1 and 0 of the word (30_encoding.md R60). -/
def positionField (w : Word) : Position := (w.extractLsb' 0 2).toFin

/-- The operand `t`, bit 0 of the word: 0 is CLOCK, 1 is ALARM (30_encoding.md R60). -/
def targetField (w : Word) : Target := if w.getLsbD 0 then .alarm else .clock

/-- The operand `f`, bit 1 of the word: 0 is slow, 1 is fast (30_encoding.md R60). -/
def rateField (w : Word) : Rate := if w.getLsbD 1 then .fast else .slow

/-- The operation-word map of 30_encoding.md R59, row by row. -/
def opcodeRows : List OpcodeRow :=
  [ { pattern := 0x00, mask := 0xFF, operation := fun _ => .reset },
    { pattern := 0x10, mask := 0xFF, operation := fun _ => .tick },
    { pattern := 0x20, mask := 0xFF, operation := fun _ => .wakeEdge },
    { pattern := 0x21, mask := 0xFF, operation := fun _ => .wakeIsr },
    { pattern := 0x30, mask := 0xFC, operation := fun w => .strobe (positionField w) },
    { pattern := 0x40, mask := 0xFF, operation := fun _ => .sweepEnd },
    { pattern := 0x50, mask := 0xFF, operation := fun _ => .debounce },
    { pattern := 0x60, mask := 0xFF, operation := fun _ => .dispatch },
    { pattern := 0x70, mask := 0xFF, operation := fun _ => .autoOff },
    { pattern := 0x80, mask := 0xFF, operation := fun _ => .alarmService },
    { pattern := 0x90, mask := 0xFF, operation := fun _ => .idleCheck },
    { pattern := 0xA0, mask := 0xFF, operation := fun _ => .minuteIncr },
    { pattern := 0xB0, mask := 0xFC, operation := fun w => .setIncr (targetField w) (rateField w) },
    { pattern := 0xC0, mask := 0xFF, operation := fun _ => .evalAlarm } ]

/-- Whether a word belongs to a row. -/
def OpcodeRow.matchesWord (r : OpcodeRow) (w : Word) : Bool := w &&& r.mask == r.pattern

/-- The decoder: the operation of the row the word belongs to, or `invalid` (30_encoding.md R61). -/
def decode (w : Word) : Verdict :=
  match opcodeRows.find? (fun r => r.matchesWord w) with
  | some r => .operation (r.operation w)
  | none => .invalid w

/-- The bit of the operand `t` (30_encoding.md R60). -/
def targetBit : Target → Word
  | .clock => 0
  | .alarm => 1

/-- The bit of the operand `f`, before it is moved to its place (30_encoding.md R60). -/
def rateBit : Rate → Word
  | .slow => 0
  | .fast => 1

/-- The operation word of an operation (30_encoding.md R59, and the Encoding line of each operation's rule). -/
def encode : Instr → Word
  | .reset => 0x00
  | .tick => 0x10
  | .wakeEdge => 0x20
  | .wakeIsr => 0x21
  | .strobe i => 0x30 ||| BitVec.ofNat 8 i.val
  | .sweepEnd => 0x40
  | .debounce => 0x50
  | .dispatch => 0x60
  | .autoOff => 0x70
  | .alarmService => 0x80
  | .idleCheck => 0x90
  | .minuteIncr => 0xA0
  | .setIncr t f => 0xB0 ||| (rateBit f <<< 1) ||| targetBit t
  | .evalAlarm => 0xC0

/-- The operation word held in the low `nbits` bits of a number; a word is 8 bits, so higher bits name nothing
(30_encoding.md R62). -/
def tableWord (nbits w : Nat) : Word := BitVec.ofNat 8 (w % 2 ^ nbits)

/-- The operation the decoder reads from a row of spec/opcode_table.json whose bits are `w`. -/
def decodeTableWord (nbits w : Nat) : Option Instr :=
  match decode (tableWord nbits w) with
  | .operation i => some i
  | .invalid _ => none

end Sys2Proof
end

