-- ==== Sys2Proof/Machine/State.lean ====
section
/-! DEFINITION. The state of the block as plain data (10_state.md), the reasons a step can stop, and the state after
RESET. -/

namespace Sys2Proof.Machine

/-- A digit set: four BCD elements in the order of 10_state.md R17. Every element is a 4-bit field, so digit sets that
are not valid (R18) can be written down. -/
structure DigitSet where
  minuteUnits : Digit
  minuteTens : Digit
  hourUnits : Digit
  hourTens : Digit
deriving DecidableEq, Repr

/-- A button code (10_state.md R29). The reserved 3-bit values 5 and 6 are never held (30_encoding.md R69). -/
inductive ButtonCode where
  | none
  | slot0
  | slot1
  | slot2
  | slot3
  | all
deriving DecidableEq, Repr

/-- The operations that raise InvalidDigit (60_exceptions.md R117). -/
inductive Raiser where
  | minuteIncr
  | setIncr
  | evalAlarm
  | strobe
deriving DecidableEq, Repr

/-- The record of a fault: which digit set was invalid and which operation raised it (10_state.md R37, 60_exceptions.md
R118). The record's code is read off `which` (DEDUCED, log 12). -/
structure FaultRecord where
  which : Target
  op : Raiser
deriving DecidableEq, Repr

/-- An event of the output trace: a pin and the value written to it (00_scope.md R14). -/
inductive PinEvent where
  | ds (v : BitVec 4)
  | segsel (v : BitVec 3)
deriving DecidableEq, Repr

/-- Why a step stops with a fault. -/
inductive Fault where
  /-- Raised by the step alone, when a fault is recorded and the environment has scheduled nothing: no operation of any
  agent is enabled (60_exceptions.md R118), so the block goes no further in this run. Safe. -/
  | stopped (r : FaultRecord)
deriving DecidableEq, Repr

/-- Why a step is refused. -/
inductive Refusal where
  /-- Raised by `exec` for an operation that has no meaning yet; no arm answers it. Safe. -/
  | notModelled (mnemonic : String)
  /-- Raised by the fetch for a word the decoder calls invalid: it names no operation (30_encoding.md R61). Safe. -/
  | invalidWord (w : Word)
  /-- Raised by the fetch for a sub-operation scheduled on its own in a run (30_encoding.md R63). Safe. -/
  | notInRun (i : Instr)
  /-- Raised by a meaning when its operation is not enabled in this state (44_debounce_mode.md R103, 60_exceptions.md
  R118, R122; 95_test_vectors.md ST8, WI3, RF1, RF2). Safe. -/
  | notEnabled (i : Instr)
deriving DecidableEq, Repr

/-- The state: the registers of 10_state.md, then the model's own fields (INVENTORY.md, State). -/
structure State where
  /-- ClockDigits (R17). -/
  clock : DigitSet
  /-- AlarmDigits (R17). -/
  alarm : DigitSet
  /-- The clock matched the alarm at the last tick (R20). -/
  sounding : Bool
  /-- The user has acknowledged this match (R20). -/
  silenced : Bool
  /-- The blink phase, which is the source's displayEnabled (R21). -/
  blinkPhase : Bool
  /-- autoOffCountdown (R22). -/
  countdown : BitVec 8
  /-- The Sleeping state (R23). -/
  asleep : Bool
  /-- The Setting state (R24). -/
  settingAlarm : Bool
  /-- Enable of the wake interrupt (R25). -/
  wakeIE : Bool
  /-- Pending flag of the wake interrupt (R26). -/
  wakeFlag : Bool
  /-- Sub-minute tick accumulator (R27). -/
  tickAcc : BitVec 16
  /-- Slow-set sub-counter (R28). -/
  slowCnt : BitVec 8
  /-- The raw button signal (R30). -/
  raw : ButtonCode
  /-- The sample being built by the sweep (R31). -/
  sweepSig : ButtonCode
  /-- The previous pass's sample (R32). -/
  prev : ButtonCode
  /-- The accepted code of this pass (R33). -/
  stable : ButtonCode
  /-- Press edge (R34). -/
  edge : Bool
  /-- The previous pass's accepted code (R34). -/
  lastStable : ButtonCode
  /-- The main-loop operation to be performed next (R35). -/
  phase : BitVec 4
  /-- The main loop waits in the CPU idle instruction (R36). -/
  idle : Bool
  /-- The recorded fault (R37). -/
  fault : Option FaultRecord
  /-- Digit-select outputs (R38). -/
  ds : BitVec 4
  /-- Segment-select outputs (R38). -/
  segsel : BitVec 3
  /-- MODEL: the parameters of this machine, which no operation writes (DESIGN CHOICE, log 5). -/
  params : Params
  /-- MODEL: the output trace, oldest event first (00_scope.md R14; DESIGN CHOICE, log 4). -/
  trace : List PinEvent
  /-- MODEL: the operation words the environment has chosen, next one first (DESIGN CHOICE, log 1). -/
  schedule : List Word
  /-- MODEL: the next word is applied in isolation, as a test vector does (30_encoding.md R63; DESIGN CHOICE,
  log 7). -/
  isolated : Bool
  /-- MODEL: the levels of the next pin reads, next one first (43_display_mux.md R96; DESIGN CHOICE, log 3). -/
  levels : List Bool
  /-- MODEL: how many free values have been drawn (DESIGN CHOICE, log 3). -/
  draws : Nat
deriving DecidableEq, Repr

/-- The state after RESET (10_state.md R43), with nothing scheduled and no level supplied. -/
def State.reset : State where
  clock := { minuteUnits := 1, minuteTens := 0, hourUnits := 0, hourTens := 0 }
  alarm := { minuteUnits := 0, minuteTens := 0, hourUnits := 7, hourTens := 0 }
  sounding := false
  silenced := false
  blinkPhase := true
  countdown := 0
  asleep := true
  settingAlarm := false
  wakeIE := true
  wakeFlag := false
  tickAcc := 0
  slowCnt := 0
  raw := .none
  sweepSig := .none
  prev := .none
  stable := .none
  edge := false
  lastStable := .none
  phase := 0
  idle := false
  fault := none
  ds := 0b0000
  segsel := 0b111
  params := Config.params
  trace := []
  schedule := []
  isolated := false
  levels := []
  draws := 0

end Sys2Proof.Machine
end

