-- ==== Sys2Proof/Machine/Digits.lean ====
section
/-! DEFINITION. Digit sets: validity, the BCD increment, the minute of day, the packed form. Button codes: their 3-bit
values. -/

namespace Sys2Proof.Machine

/-- Element `i` of a digit set (10_state.md R17). -/
def DigitSet.get (D : DigitSet) : Position → Digit
  | 0 => D.minuteUnits
  | 1 => D.minuteTens
  | 2 => D.hourUnits
  | 3 => D.hourTens

/-- `valid(D)` (10_state.md R18). -/
def DigitSet.valid (D : DigitSet) : Bool :=
  decide (D.minuteUnits.toNat ≤ 9) && decide (D.minuteTens.toNat ≤ 5) && decide (D.hourUnits.toNat ≤ 9)
    && decide (D.hourTens.toNat ≤ 2) && decide (D.hourTens.toNat = 2 → D.hourUnits.toNat ≤ 3)

/-- A carry of the BCD increment: a digit above `most` becomes 0 and 1 is carried to the next digit (41_clock_alarm.md
R78). Answers the digit and the next digit. -/
def bcdCarry (most digit next : Nat) : Nat × Nat :=
  if most < digit then (0, next + 1) else (digit, next)

/-- `BCD_INCR(D)` (41_clock_alarm.md R78): one minute later, with the wrap at 24:00 tested after the carries. The
intermediate digits are natural numbers, so no carry is lost. -/
def bcdIncr (D : DigitSet) : DigitSet :=
  let c0 := bcdCarry 9 (D.minuteUnits.toNat + 1) D.minuteTens.toNat
  let c1 := bcdCarry 5 c0.2 D.hourUnits.toNat
  let c2 := bcdCarry 9 c1.2 D.hourTens.toNat
  if c2.2 = 2 ∧ c2.1 = 4 then
    { minuteUnits := 0, minuteTens := 0, hourUnits := 0, hourTens := 0 }
  else
    { minuteUnits := BitVec.ofNat 4 c0.1, minuteTens := BitVec.ofNat 4 c1.1,
      hourUnits := BitVec.ofNat 4 c2.1, hourTens := BitVec.ofNat 4 c2.2 }

/-- `m(D)`, the minute of day of a digit set (41_clock_alarm.md R79). -/
def minuteOfDay (D : DigitSet) : Nat :=
  600 * D.hourTens.toNat + 60 * D.hourUnits.toNat + 10 * D.minuteTens.toNat + D.minuteUnits.toNat

/-- `pack(D)`: element i in nibble i (30_encoding.md R65). -/
def pack (D : DigitSet) : BitVec 16 :=
  D.hourTens ++ D.hourUnits ++ D.minuteTens ++ D.minuteUnits

/-- The digit set a packed form holds (30_encoding.md R65). -/
def unpack (v : BitVec 16) : DigitSet where
  minuteUnits := v.extractLsb' 0 4
  minuteTens := v.extractLsb' 4 4
  hourUnits := v.extractLsb' 8 4
  hourTens := v.extractLsb' 12 4

/-- The 3-bit value of a button code (30_encoding.md R69). -/
def buttonBits : ButtonCode → BitVec 3
  | .none => 0b000
  | .slot0 => 0b001
  | .slot1 => 0b010
  | .slot2 => 0b011
  | .slot3 => 0b100
  | .all => 0b111

/-- The button code of a 3-bit value; 5 and 6 are reserved (30_encoding.md R69). -/
def buttonOfBits (v : BitVec 3) : Option ButtonCode :=
  if v = 0b000 then some .none
  else if v = 0b001 then some .slot0
  else if v = 0b010 then some .slot1
  else if v = 0b011 then some .slot2
  else if v = 0b100 then some .slot3
  else if v = 0b111 then some .all
  else none

/-- `SLOT(i)`: the button code of a slot (10_state.md R29). -/
def slotCode : Position → ButtonCode
  | 0 => .slot0
  | 1 => .slot1
  | 2 => .slot2
  | 3 => .slot3

/-- `slot(s)`: the slot of a slot code (10_state.md R29). The rule gives NONE and ALL no slot: theirs is a free value
(DESIGN CHOICE, log 16). -/
def slotOf : ButtonCode → Position
  | .slot0 => 0
  | .slot1 => 1
  | .slot2 => 2
  | .slot3 => 3
  | .none => Config.undefinedSlot (buttonBits .none)
  | .all => Config.undefinedSlot (buttonBits .all)

/-- `onehot(i)` (00_scope.md R13). -/
def onehot (i : Position) : BitVec 4 := BitVec.ofNat 4 (2 ^ i.val)

end Sys2Proof.Machine
end

