-- ==== Sys2Proof/Machine/DigitCodec.lean ====
section
/-! DEFINITION. The Digit Codec (40_digit_codec.md): the digit-to-segment table, the dash, ENCODE. -/

namespace Sys2Proof.Machine

/-- The digit-to-segment table (40_digit_codec.md R74), in the bit order of 30_encoding.md R66. Digits 0, 1, 8 and 9 are
the source's; 2 to 7 are PRESUMED by the spec from general knowledge (93_implementation_defined.md K1, log 11). -/
def segmentTable : List SegMask :=
  [0x3F, 0x06, 0x5B, 0x4F, 0x66, 0x6D, 0x7D, 0x07, 0x7F, 0x6F]

/-- The dash: segment G alone (40_digit_codec.md R75; PRESUMED by the spec, 93_implementation_defined.md K2, log 11). -/
def dashMask : SegMask := 0x40

/-- `ENCODE(d)`: the mask of a digit, or nothing for a digit above 9, where the caller raises InvalidDigit
(40_digit_codec.md R76, R77). -/
def encodeDigit (d : Digit) : Option SegMask := segmentTable[d.toNat]?

end Sys2Proof.Machine
end

