-- ==== Sys2Proof/Machine/Flags.lean ====
section
/-! DEFINITION. The flags and modes computed from the state and never stored (00_scope.md R15, 10_state.md R39), and the
flag computations of the operations. -/

namespace Sys2Proof.Machine

/-- `alarmActive(st)` (00_scope.md R15). -/
def alarmActive (s : State) : Bool := s.sounding && !s.silenced

/-- `TONE`, the level of the tone output (10_state.md R39). -/
def tone (s : State) : Bool := alarmActive s

/-- The four values of `effMode` (00_scope.md R15). -/
inductive EffMode where
  | alarmSounding
  | sleeping
  | setting
  | activeDisplay
deriving DecidableEq, Repr

/-- `effMode(st)` (00_scope.md R15). -/
def effMode (s : State) : EffMode :=
  if alarmActive s then .alarmSounding
  else if s.asleep then .sleeping
  else if s.settingAlarm then .setting
  else .activeDisplay

/-- The blink phase after a tick (42_tick_scheduler.md R89). -/
def nextBlink (settingAlarm blinkPhase : Bool) : Bool := if settingAlarm then !blinkPhase else true

/-- The press edge: the accepted code of this pass is a code the previous pass had not (44_debounce_mode.md R107, R109). -/
def pressEdge (stable lastStable : ButtonCode) : Bool := decide (stable ≠ .none) && decide (stable ≠ lastStable)

/-- Saturating decrement of the countdown (42_tick_scheduler.md R91). -/
def countDown (v : BitVec 8) : BitVec 8 := if v = 0 then 0 else v - 1

end Sys2Proof.Machine
end

