-- ==== Sys2Proof/Machine/Operands.lean ====
section
/-! DEFINITION. The operands of the operations: which digit set is meant, which is shown, what a button does, what a slot
displays. -/

namespace Sys2Proof.Machine

/-- `target(st)`: the digit set the set buttons change (00_scope.md R15). -/
def target (s : State) : Target := if s.settingAlarm then .alarm else .clock

/-- `digitsOf(st, t)` (00_scope.md R15). -/
def digitsOf (s : State) : Target → DigitSet
  | .clock => s.clock
  | .alarm => s.alarm

/-- `shown(st)`: the digit set on the display (00_scope.md R15, 43_display_mux.md R95). -/
def shown (s : State) : DigitSet := if s.settingAlarm then s.alarm else s.clock

/-- The function of the button in a slot (00_scope.md R9). -/
def buttonFunction (m : ButtonMap) : Position → ButtonFunction
  | 0 => m.slot0
  | 1 => m.slot1
  | 2 => m.slot2
  | 3 => m.slot3

/-- The segment mask of slot `i`: the dash while the blink phase is false, else the digit's (43_display_mux.md R97). -/
def slotMask (s : State) (i : Position) : Option SegMask :=
  if s.blinkPhase then encodeDigit ((shown s).get i) else some dashMask

/-- The SEGSEL code of sub-phase `k`: segment k where the mask lights it, else blank (30_encoding.md R67,
43_display_mux.md R98). -/
def subPhaseCode (mask : SegMask) (k : Nat) : BitVec 3 := if mask.getLsbD k then BitVec.ofNat 3 k else 7

/-- The seven sub-phases of a slot, in order (43_display_mux.md R98). -/
def subPhases : List Nat := [0, 1, 2, 3, 4, 5, 6]

/-- The mnemonic of the operation in a fault record, as spec/opcode_table.json spells it (60_exceptions.md R117). -/
def raiserMnemonic : Raiser → String
  | .minuteIncr => "MINUTE_INCR"
  | .setIncr => "SET_INCR"
  | .evalAlarm => "EVAL_ALARM"
  | .strobe => "STROBE"

/-- The code of a fault record: 1 when `clock` was invalid, 2 when `alarm` was (60_exceptions.md R117). -/
def faultCode (r : FaultRecord) : Word :=
  match r.which with
  | .clock => 1
  | .alarm => 2

end Sys2Proof.Machine
end

