-- ==== Sys2Proof/Machine/Ops.lean ====
section
/-! DEFINITION. The named operations the meanings are made of: writing a digit set, driving a pin, reading a pin, raising
the fault, sequencing the steps of an operation, and answering only where the operation is enabled. -/

namespace Sys2Proof.Machine

/-- How far an operation has come: it goes on from a state, or a fault has ended it there (60_exceptions.md R118). -/
inductive Effect where
  | completed (s : State)
  | raised (s : State)
deriving DecidableEq, Repr

/-- The state an operation leaves. -/
def Effect.state : Effect → State
  | .completed s => s
  | .raised s => s

/-- The next step of an operation: nothing is performed after a raise, and the writes before it stay (60_exceptions.md
R118). -/
def Effect.andThen (e : Effect) (f : State → Effect) : Effect :=
  match e with
  | .completed s => f s
  | .raised s => .raised s

/-- Records a fault: the record of the digit set and the operation (10_state.md R37, 60_exceptions.md R118). -/
def recordFault (which : Target) (op : Raiser) (s : State) : State :=
  { s with fault := some { which := which, op := op } }

/-- `raise Fatal(InvalidDigit, which, op)`: records the fault and ends the operation (60_exceptions.md R118). There is no
return from it: a restart is a new run (70_reset_and_hazards.md R135). -/
def raiseInvalidDigit (which : Target) (op : Raiser) (s : State) : Effect := .raised (recordFault which op s)

/-- Goes on when the digit set `t` is valid, raises InvalidDigit when it is not (60_exceptions.md R117). -/
def checkDigits (t : Target) (op : Raiser) (s : State) : Effect :=
  if (digitsOf s t).valid then .completed s else raiseInvalidDigit t op s

/-- Writes a digit set. -/
def writeDigits (t : Target) (D : DigitSet) (s : State) : State :=
  match t with
  | .clock => { s with clock := D }
  | .alarm => { s with alarm := D }

/-- `st.phase <- p` (00_scope.md R14). -/
def setPhase (p : BitVec 4) (s : State) : State := { s with phase := p }

/-- Button activity: the countdown is loaded with A (44_debounce_mode.md R112). -/
def reloadCountdown (s : State) : State := { s with countdown := s.params.autoOffTicks }

/-- The user acknowledges the alarm (10_state.md R20). -/
def silence (s : State) : State := { s with silenced := true }

/-- What a pin event leaves on DS (00_scope.md R14). -/
def dsAfter (e : PinEvent) (v : BitVec 4) : BitVec 4 :=
  match e with
  | .ds w => w
  | .segsel _ => v

/-- What a pin event leaves on SEGSEL (00_scope.md R14). -/
def segselAfter (e : PinEvent) (v : BitVec 3) : BitVec 3 :=
  match e with
  | .ds _ => v
  | .segsel w => w

/-- A sequence of `WritePin`s: each sets its output, and each is an event of the output trace (00_scope.md R14). -/
def writePins (events : List PinEvent) (s : State) : State :=
  { s with
    ds := events.foldl (fun v e => dsAfter e v) s.ds
    segsel := events.foldl (fun v e => segselAfter e v) s.segsel
    trace := s.trace ++ events }

/-- The pin writes of slot `i`: the select line, the seven sub-phases, the blank (43_display_mux.md R97, R98). -/
def slotEvents (i : Position) (mask : SegMask) : List PinEvent :=
  .ds (onehot i) :: (subPhases.map fun k => .segsel (subPhaseCode mask k)) ++ [.segsel 7]

/-- Renders slot `i` (43_display_mux.md R97, R98). -/
def driveSlot (i : Position) (mask : SegMask) (s : State) : State := writePins (slotEvents i mask) s

/-- The level `ReadPin(p)` returns: what the environment supplies, else a free value (43_display_mux.md R96). -/
def pinLevel (p : InputPin) (s : State) : Bool :=
  match s.levels with
  | level :: _ => level
  | [] => Config.freeLevel p s.draws

/-- The supplied levels a read leaves. -/
def levelsAfterRead (s : State) : List Bool := s.levels.tail

/-- The number of draws after a read: one more when no level was supplied, so that no law relates two reads
(43_display_mux.md R96). -/
def drawsAfterRead (s : State) : Nat := if s.levels.isEmpty then s.draws + 1 else s.draws

/-- What is left of the environment after a `ReadPin`. The read has no side effect on the block (00_scope.md R14). -/
def afterRead (s : State) : State :=
  { s with levels := levelsAfterRead s, draws := drawsAfterRead s }

/-- Whether any operation may be performed: no fault is recorded (10_state.md R37, 60_exceptions.md R118). -/
def noFault (s : State) : Bool := s.fault.isNone

/-- Whether the main loop may perform the operation of phase `p` (44_debounce_mode.md R103). -/
def mainLoopEnabled (p : BitVec 4) (s : State) : Bool := noFault s && !s.idle && decide (s.phase = p)

/-- Whether the wake interrupt is taken (44_debounce_mode.md R115, 60_exceptions.md R122). -/
def wakeIsrEnabled (s : State) : Bool := noFault s && s.wakeIE && s.wakeFlag

/-- Performs an operation where it is enabled, and refuses it by name where it is not (44_debounce_mode.md R103,
95_test_vectors.md ST8, WI3, RF1, RF2). -/
def performIf (enabled : Bool) (i : Instr) (after : State) : Host.Outcome State Fault Refusal :=
  if enabled then .next after else .refused (.notEnabled i)

end Sys2Proof.Machine
end

