-- ==== Sys2Proof/Machine/DisplayMux.lean ====
section
/-! DEFINITION. STROBE and SWEEP_END (43_display_mux.md). -/

namespace Sys2Proof.Machine

/-- The phase that names STROBE i (30_encoding.md R70). -/
def strobePhase (i : Position) : BitVec 4 := BitVec.ofNat 4 (2 + i.val)

/-- The end of a slot: the sense line is read, an asserted level is attributed to slot `i`, the phase moves on
(43_display_mux.md R97, R99). -/
def senseSlot (i : Position) (s : State) : State :=
  { afterRead s with
    sweepSig := if pinLevel .sense s then slotCode i else s.sweepSig
    phase := s.phase + 1 }

/-- STROBE i as a step (43_display_mux.md R97): nothing is written to a pin before the check of the shown digit set. -/
def strobe (i : Position) (s : State) : Effect :=
  (checkDigits (target s) .strobe s).andThen fun u =>
    match slotMask u i with
    | some mask => .completed (senseSlot i (driveSlot i mask u))
    | none => raiseInvalidDigit (target u) .strobe u

/-- SWEEP_END as a step: release the select lines, sample the wake button, publish the sweep's code (43_display_mux.md
R100). -/
def sweepEnd (s : State) : State :=
  let u := writePins [.ds 0b0000] s
  { afterRead u with
    raw := if pinLevel .wake u then .all else u.sweepSig
    sweepSig := .none
    phase := 7 }

/-- STROBE i, words 0x30 to 0x33 (43_display_mux.md R97). -/
def execStrobe (i : Position) (s : State) : Host.Outcome State Fault Refusal :=
  performIf (mainLoopEnabled (strobePhase i) s) (.strobe i) (strobe i s).state

/-- SWEEP_END, word 0x40 (43_display_mux.md R100). -/
def execSweepEnd (s : State) : Host.Outcome State Fault Refusal :=
  performIf (mainLoopEnabled 6 s) .sweepEnd (sweepEnd s)

end Sys2Proof.Machine
end

