-- ==== Sys2Proof/Machine/ClockAlarm.lean ====
section
/-! DEFINITION. MINUTE_INCR, SET_INCR, EVAL_ALARM (41_clock_alarm.md). Each is a step of other operations and, applied in
isolation, an operation with a word (30_encoding.md R63). -/

namespace Sys2Proof.Machine

/-- The clock one minute later. -/
def advanceClock (s : State) : State := { s with clock := bcdIncr s.clock }

/-- MINUTE_INCR as a step (41_clock_alarm.md R81). -/
def minuteIncr (s : State) : Effect :=
  (checkDigits .clock .minuteIncr s).andThen fun u => .completed (advanceClock u)

/-- Whether a call of SET_INCR advances the digit set: always in fast mode, every K-th time in slow mode
(41_clock_alarm.md R82). -/
def setAdvances (f : Rate) (s : State) : Bool :=
  match f with
  | .fast => true
  | .slow => decide (s.params.slowDivisor.toNat ≤ s.slowCnt.toNat + 1)

/-- The slow sub-counter after a call of SET_INCR (41_clock_alarm.md R82). -/
def slowCntAfterSet (f : Rate) (s : State) : BitVec 8 :=
  match f with
  | .fast => s.slowCnt
  | .slow => if s.params.slowDivisor.toNat ≤ s.slowCnt.toNat + 1 then 0 else s.slowCnt + 1

/-- The slow sub-counter counts a call of SET_INCR (41_clock_alarm.md R82). -/
def countSet (f : Rate) (s : State) : State := { s with slowCnt := slowCntAfterSet f s }

/-- The digit set a call of SET_INCR leaves in its target (41_clock_alarm.md R82). -/
def digitsAfterSet (t : Target) (f : Rate) (s : State) : DigitSet :=
  if setAdvances f s then bcdIncr (digitsOf s t) else digitsOf s t

/-- SET_INCR as a step (41_clock_alarm.md R82). -/
def setIncr (t : Target) (f : Rate) (s : State) : Effect :=
  (checkDigits t .setIncr s).andThen fun u => .completed (writeDigits t (digitsAfterSet t f u) (countSet f u))

/-- The comparison of the clock with the alarm: a match sounds and keeps `silenced`, a mismatch clears both flags
(41_clock_alarm.md R83). -/
def compareAlarm (s : State) : State :=
  { s with
    sounding := decide (s.clock = s.alarm)
    silenced := s.silenced && decide (s.clock = s.alarm) }

/-- EVAL_ALARM as a step (41_clock_alarm.md R83): `clock` is checked before `alarm`. -/
def evalAlarm (s : State) : Effect :=
  (checkDigits .clock .evalAlarm s).andThen fun u =>
    (checkDigits .alarm .evalAlarm u).andThen fun v => .completed (compareAlarm v)

/-- MINUTE_INCR, word 0xA0 (41_clock_alarm.md R81). -/
def execMinuteIncr (s : State) : Host.Outcome State Fault Refusal :=
  performIf (noFault s) .minuteIncr (minuteIncr s).state

/-- SET_INCR t, f, words 0xB0 to 0xB3 (41_clock_alarm.md R82). -/
def execSetIncr (t : Target) (f : Rate) (s : State) : Host.Outcome State Fault Refusal :=
  performIf (noFault s) (.setIncr t f) (setIncr t f s).state

/-- EVAL_ALARM, word 0xC0 (41_clock_alarm.md R83). -/
def execEvalAlarm (s : State) : Host.Outcome State Fault Refusal :=
  performIf (noFault s) .evalAlarm (evalAlarm s).state

end Sys2Proof.Machine
end

