-- ==== Sys2Proof/Machine/ModeController.lean ====
section
/-! DEFINITION. ALARM_SERVICE, IDLE_CHECK, DEBOUNCE, DISPATCH, AUTO_OFF (44_debounce_mode.md). -/

namespace Sys2Proof.Machine

/-- The display is brought to the alarm: awake, out of Setting, not blanked by the blink (44_debounce_mode.md R105). -/
def showAlarm (s : State) : State := { s with asleep := false, settingAlarm := false, blinkPhase := true }

/-- ALARM_SERVICE as a step (44_debounce_mode.md R105). -/
def alarmService (s : State) : State := setPhase 1 (if alarmActive s then showAlarm s else s)

/-- The CPU idle instruction: the main loop waits (44_debounce_mode.md R106). -/
def beginIdle (s : State) : State := { s with idle := true }

/-- IDLE_CHECK as a step (44_debounce_mode.md R106): the test and the wait are one operation. -/
def idleCheck (s : State) : State :=
  if s.asleep then setPhase 0 (if alarmActive s then s else beginIdle s) else setPhase 2 s

/-- The sample DEBOUNCE works on: the sentinel counts as no button (44_debounce_mode.md R107). -/
def debounceSample (c : ButtonCode) : ButtonCode := if c = .all then .none else c

/-- DEBOUNCE as a step (44_debounce_mode.md R107, R108). -/
def debounce (s : State) : State :=
  let sample := debounceSample s.raw
  let accepted := if sample = s.prev then sample else .none
  { s with
    raw := sample
    prev := sample
    stable := accepted
    edge := pressEdge accepted s.lastStable
    lastStable := accepted
    phase := 8 }

/-- Setting is entered or left (44_debounce_mode.md R110). -/
def toggleSetting (s : State) : State := { s with settingAlarm := !s.settingAlarm, blinkPhase := true }

/-- A MODE press: toggles Setting on a press edge only (44_debounce_mode.md R109, R110). -/
def modePress (s : State) : State := if s.edge then toggleSetting s else s

/-- What a button function does when its press is accepted (44_debounce_mode.md R110, R111). -/
def pressFunction (f : ButtonFunction) (s : State) : Effect :=
  match f with
  | .mode => .completed (modePress s)
  | .slow => setIncr (target s) .slow s
  | .fast => setIncr (target s) .fast s
  | .nofunc => .completed s

/-- An accepted code after its activity is counted: an active alarm is silenced and nothing else, else the button's
function is done (44_debounce_mode.md R110). -/
def pressEffect (s : State) : Effect :=
  if alarmActive s then .completed (silence s)
  else pressFunction (buttonFunction s.params.buttonMap (slotOf s.stable)) s

/-- What DISPATCH does with the pass's accepted code (44_debounce_mode.md R110, R112). -/
def acceptPress (s : State) : Effect :=
  if s.stable = .none then .completed s else pressEffect (reloadCountdown s)

/-- DISPATCH as a step (44_debounce_mode.md R110). A fault of SET_INCR ends it before the phase is written (DEDUCED, log 9). -/
def dispatch (s : State) : Effect := (acceptPress s).andThen fun u => .completed (setPhase 9 u)

/-- Whether AUTO_OFF enters Sleeping (44_debounce_mode.md R113). -/
def sleepDue (s : State) : Bool := !s.asleep && decide (s.countdown = 0) && !alarmActive s

/-- Sleep entry: Setting is left and the wake interrupt is re-armed (44_debounce_mode.md R113). -/
def enterSleep (s : State) : State :=
  { s with asleep := true, settingAlarm := false, blinkPhase := true, wakeIE := true }

/-- AUTO_OFF as a step (44_debounce_mode.md R113). -/
def autoOff (s : State) : State := setPhase 0 (if sleepDue s then enterSleep s else s)

/-- ALARM_SERVICE, word 0x80 (44_debounce_mode.md R105). -/
def execAlarmService (s : State) : Host.Outcome State Fault Refusal :=
  performIf (mainLoopEnabled 0 s) .alarmService (alarmService s)

/-- IDLE_CHECK, word 0x90 (44_debounce_mode.md R106). -/
def execIdleCheck (s : State) : Host.Outcome State Fault Refusal :=
  performIf (mainLoopEnabled 1 s) .idleCheck (idleCheck s)

/-- DEBOUNCE, word 0x50 (44_debounce_mode.md R107). -/
def execDebounce (s : State) : Host.Outcome State Fault Refusal :=
  performIf (mainLoopEnabled 7 s) .debounce (debounce s)

/-- DISPATCH, word 0x60 (44_debounce_mode.md R110). -/
def execDispatch (s : State) : Host.Outcome State Fault Refusal :=
  performIf (mainLoopEnabled 8 s) .dispatch (dispatch s).state

/-- AUTO_OFF, word 0x70 (44_debounce_mode.md R113). -/
def execAutoOff (s : State) : Host.Outcome State Fault Refusal :=
  performIf (mainLoopEnabled 9 s) .autoOff (autoOff s)

end Sys2Proof.Machine
end

