-- ==== Sys2Proof/Machine/PowerOn.lean ====
section
/-! DEFINITION. RESET (70_reset_and_hazards.md R133). -/

namespace Sys2Proof.Machine

/-- The clock before the boot increment, 00:00 (70_reset_and_hazards.md R133). -/
def midnight : DigitSet := { minuteUnits := 0, minuteTens := 0, hourUnits := 0, hourTens := 0 }

/-- Every register at its reset value, the clock at 00:00, the output trace empty (70_reset_and_hazards.md R133). The
parameters, what the environment has chosen, and the count of its draws are not the block's registers and stay. -/
def resetRegisters (s : State) : State :=
  { State.reset with
    clock := midnight, params := s.params, schedule := s.schedule, isolated := s.isolated, levels := s.levels,
    draws := s.draws }

/-- RESET, word 0x00: the registers, then the boot increment (70_reset_and_hazards.md R133, R136). It begins a new run
from any state, a faulted one too (R135; DESIGN CHOICE, log 6). -/
def execReset (s : State) : Host.Outcome State Fault Refusal :=
  performIf true .reset (minuteIncr (resetRegisters s)).state

end Sys2Proof.Machine
end

