-- ==== Sys2Proof/Machine/TickScheduler.lean ====
section
/-! DEFINITION. TICK (42_tick_scheduler.md R87). -/

namespace Sys2Proof.Machine

/-- Step 1: the blink phase (42_tick_scheduler.md R89). -/
def tickBlink (s : State) : State := { s with blinkPhase := nextBlink s.settingAlarm s.blinkPhase }

/-- Whether this tick ends a minute: it is the N-th since the last advance (42_tick_scheduler.md R90). -/
def tickEndsMinute (s : State) : Bool := decide (s.params.ticksPerMinute.toNat ≤ s.tickAcc.toNat + 1)

/-- Writes the accumulator. -/
def setTickAcc (v : BitVec 16) (s : State) : State := { s with tickAcc := v }

/-- Step 2: accumulate, and advance one minute every N ticks (42_tick_scheduler.md R90). -/
def tickAccumulate (s : State) : Effect :=
  if tickEndsMinute s then minuteIncr (setTickAcc 0 s) else .completed (setTickAcc (s.tickAcc + 1) s)

/-- Step 4: the auto-off countdown (42_tick_scheduler.md R91). -/
def tickCountDown (s : State) : State := { s with countdown := countDown s.countdown }

/-- Step 5: resume the main loop (42_tick_scheduler.md R92). -/
def tickResume (s : State) : State := { s with idle := false }

/-- The five steps of TICK in the order of 42_tick_scheduler.md R88. -/
def tick (s : State) : Effect :=
  ((tickAccumulate (tickBlink s)).andThen evalAlarm).andThen fun u => .completed (tickResume (tickCountDown u))

/-- TICK, word 0x10 (42_tick_scheduler.md R87), enabled in every state without a fault (60_exceptions.md R121). -/
def execTick (s : State) : Host.Outcome State Fault Refusal :=
  performIf (noFault s) .tick (tick s).state

end Sys2Proof.Machine
end

