-- ==== Sys2Proof/Machine/WakeButton.lean ====
section
/-! DEFINITION. WAKE_EDGE and WAKE_ISR (44_debounce_mode.md R114, R115). -/

namespace Sys2Proof.Machine

/-- The pending flag of the wake interrupt is set (10_state.md R26). -/
def setWakePending (s : State) : State := { s with wakeFlag := true }

/-- WAKE_EDGE as a step: the edge is noted when the interrupt is armed, or always with the latch (44_debounce_mode.md
R114). -/
def wakeEdge (s : State) : State :=
  if s.wakeIE || s.params.wakeLatch then setWakePending s else s

/-- WAKE_ISR as a step (44_debounce_mode.md R115). Nothing is saved and the phase is not touched (60_exceptions.md R124). -/
def wakeIsr (s : State) : State :=
  { s with
    wakeFlag := false
    wakeIE := false
    silenced := s.silenced || alarmActive s
    asleep := false
    countdown := s.params.autoOffTicks
    idle := false }

/-- WAKE_EDGE, word 0x20 (44_debounce_mode.md R114). -/
def execWakeEdge (s : State) : Host.Outcome State Fault Refusal :=
  performIf (noFault s) .wakeEdge (wakeEdge s)

/-- WAKE_ISR, word 0x21 (44_debounce_mode.md R115), enabled by 60_exceptions.md R122. -/
def execWakeIsr (s : State) : Host.Outcome State Fault Refusal :=
  performIf (wakeIsrEnabled s) .wakeIsr (wakeIsr s)

end Sys2Proof.Machine
end

