-- ==== Sys2Proof/Machine/Dispatch.lean ====
section
/-! DEFINITION. The meaning of every operation, one arm each. -/

namespace Sys2Proof.Machine

def exec (i : Instr) (s : State) : Host.Outcome State Fault Refusal :=
  match i with
  | .reset => Sys2Proof.Machine.execReset s
  | .tick => Sys2Proof.Machine.execTick s
  | .wakeEdge => Sys2Proof.Machine.execWakeEdge s
  | .wakeIsr => Sys2Proof.Machine.execWakeIsr s
  | .strobe p => Sys2Proof.Machine.execStrobe p s
  | .sweepEnd => Sys2Proof.Machine.execSweepEnd s
  | .debounce => Sys2Proof.Machine.execDebounce s
  | .dispatch => Sys2Proof.Machine.execDispatch s
  | .autoOff => Sys2Proof.Machine.execAutoOff s
  | .alarmService => Sys2Proof.Machine.execAlarmService s
  | .idleCheck => Sys2Proof.Machine.execIdleCheck s
  | .minuteIncr => Sys2Proof.Machine.execMinuteIncr s
  | .setIncr t f => Sys2Proof.Machine.execSetIncr t f s
  | .evalAlarm => Sys2Proof.Machine.execEvalAlarm s

end Sys2Proof.Machine
end

