-- ==== Sys2Proof/Machine/Sequencer.lean ====
section
/-! DEFINITION. The agents and the main-loop sequencer: who performs an operation, which operation a phase names, which
operations are enabled in a state (00_scope.md R4, 44_debounce_mode.md R103, 60_exceptions.md R121 to R123). -/

namespace Sys2Proof.Machine

/-- The agent that performs an operation (00_scope.md R4, 30_encoding.md R59). -/
def agentOf : Instr → Agent
  | .reset => .powerOn
  | .tick => .tickTimer
  | .wakeEdge => .wakePin
  | .wakeIsr => .wakeInterrupt
  | .strobe _ => .mainLoop
  | .sweepEnd => .mainLoop
  | .debounce => .mainLoop
  | .dispatch => .mainLoop
  | .autoOff => .mainLoop
  | .alarmService => .mainLoop
  | .idleCheck => .mainLoop
  | .minuteIncr => .subOperation
  | .setIncr _ _ => .subOperation
  | .evalAlarm => .subOperation

/-- The phase that names an operation of the main loop (30_encoding.md R70). -/
def phaseOf : Instr → Option (BitVec 4)
  | .alarmService => some 0
  | .idleCheck => some 1
  | .strobe i => some (strobePhase i)
  | .sweepEnd => some 6
  | .debounce => some 7
  | .dispatch => some 8
  | .autoOff => some 9
  | .reset => none
  | .tick => none
  | .wakeEdge => none
  | .wakeIsr => none
  | .minuteIncr => none
  | .setIncr _ _ => none
  | .evalAlarm => none

/-- The operations of the main loop in the order of a pass (44_debounce_mode.md R103). -/
def mainLoopOperations : List Instr :=
  [.alarmService, .idleCheck, .strobe 0, .strobe 1, .strobe 2, .strobe 3, .sweepEnd, .debounce, .dispatch, .autoOff]

/-- The operations of the main loop that are enabled: the one `phase` names, and none while it idles
(44_debounce_mode.md R103). -/
def enabledMainLoop (s : State) : List Instr :=
  if s.idle then [] else mainLoopOperations.filter fun i => phaseOf i == some s.phase

/-- Every operation that is enabled in a run from a state without a fault: TICK and WAKE_EDGE always, WAKE_ISR when it
is armed and pending, the main loop's own (20_memory.md R53, 60_exceptions.md R121 to R123). -/
def enabledOperations (s : State) : List Instr :=
  [.tick, .wakeEdge] ++ (if wakeIsrEnabled s then [.wakeIsr] else []) ++ enabledMainLoop s

/-- The enabled operation a free choice `n` falls on (20_memory.md R53). -/
def chosenOperation (n : Nat) (s : State) : Instr :=
  (enabledOperations s).getD (n % (enabledOperations s).length) .tick

end Sys2Proof.Machine
end

