-- ==== Sys2Proof/Machine/Fetch.lean ====
section
/-! DEFINITION. Which operation comes next. The block fetches nothing (20_memory.md R57); the choice among the enabled
operations is the environment's (R53). It stands in `schedule` as operation words; where nothing is scheduled, a free
value makes it. -/

namespace Sys2Proof.Machine

/-- What comes next: an operation and the state it is performed in, or the reason nothing is performed. -/
inductive Fetched where
  | perform (i : Instr) (s : State)
  | stop (r : Fault)
  | refuse (r : Refusal)
deriving Repr

/-- A scheduled word: decoded (30_encoding.md R61); a sub-operation only in isolation (R63). -/
def fetchWord (w : Word) (rest : List Word) (s : State) : Fetched :=
  match decode w with
  | .invalid v => .refuse (.invalidWord v)
  | .operation i =>
    if i.performedInRun || s.isolated then .perform i { s with schedule := rest, isolated := false }
    else .refuse (.notInRun i)

/-- Nothing is scheduled: a free choice among the enabled operations (20_memory.md R53), or the stop of a faulted block
(60_exceptions.md R118). -/
def fetchFree (s : State) : Fetched :=
  match s.fault with
  | some r => .stop (.stopped r)
  | none => .perform (chosenOperation (Config.freeChoice s.draws) s) { s with draws := s.draws + 1, isolated := false }

/-- The next operation. -/
def fetch (s : State) : Fetched :=
  match s.schedule with
  | w :: rest => fetchWord w rest s
  | [] => fetchFree s

/-- Selects an operation: sets what the block's own sequencing reads before it performs `i` (the phase and the idle
wait for the main loop, the armed and pending wake interrupt, isolation for a sub-operation, no recorded fault). -/
def selectOperation (i : Instr) (s : State) : State :=
  match agentOf i with
  | .powerOn => s
  | .tickTimer => { s with fault := none }
  | .wakePin => { s with fault := none }
  | .wakeInterrupt => { s with fault := none, wakeIE := true, wakeFlag := true }
  | .mainLoop => { s with fault := none, idle := false, phase := (phaseOf i).getD s.phase }
  | .subOperation => { s with fault := none, isolated := true }

/-- The state whose next step performs the operation of word `w`: the word is scheduled first and its operation is
selected. -/
def scheduleWord (w : Word) (s : State) : State :=
  let u := { s with schedule := w :: s.schedule }
  match decode w with
  | .operation i => selectOperation i u
  | .invalid _ => u

end Sys2Proof.Machine
end

