-- ==== Sys2Proof/Machine/Step.lean ====
section
/-! DEFINITION. One step of the block: one atomic operation (20_memory.md R52, R53). -/

namespace Sys2Proof.Machine

/-- One step: the next operation is performed, or the reason it is not is answered (20_memory.md R53). -/
def step (s : State) : Host.Outcome State Fault Refusal :=
  match fetch s with
  | .perform i u => exec i u
  | .stop r => .fault r
  | .refuse r => .refused r

/-- The state whose very next step performs the operation of the table word `w` (DESIGN CHOICE, log 2). -/
def State.withFetchWord (s : State) (nbits w : Nat) : State := scheduleWord (tableWord nbits w) s

end Sys2Proof.Machine
end

