-- ==== Sys2Proof/Machine/Image.lean ====
section
/-! DEFINITION. The 16-byte state image, an observation of the state (20_memory.md R46, R49). No operation reads or
writes it. -/

namespace Sys2Proof.Machine

/-- The low byte of a 16-bit field, the one at the lower offset (20_memory.md R49). -/
def lowByte (v : BitVec 16) : Word := v.extractLsb' 0 8

/-- The high byte of a 16-bit field, the one at the higher offset (20_memory.md R49). -/
def highByte (v : BitVec 16) : Word := v.extractLsb' 8 8

/-- The FLAGS byte (20_memory.md R46, offset 0x04). -/
def flagsByte (s : State) : Word :=
  BitVec.ofBool s.idle ++ BitVec.ofBool s.wakeFlag ++ BitVec.ofBool s.wakeIE ++ BitVec.ofBool s.settingAlarm
    ++ BitVec.ofBool s.asleep ++ BitVec.ofBool s.blinkPhase ++ BitVec.ofBool s.silenced ++ BitVec.ofBool s.sounding

/-- The BTN0 byte (20_memory.md R46, offset 0x09). -/
def btn0Byte (s : State) : Word := 0#1 ++ BitVec.ofBool s.edge ++ buttonBits s.sweepSig ++ buttonBits s.raw

/-- The BTN1 byte (20_memory.md R46, offset 0x0A). -/
def btn1Byte (s : State) : Word := 0#2 ++ buttonBits s.stable ++ buttonBits s.prev

/-- The BTN2 byte (20_memory.md R46, offset 0x0B). -/
def btn2Byte (s : State) : Word := 0#5 ++ buttonBits s.lastStable

/-- The SEQ byte (20_memory.md R46, offset 0x0C). -/
def seqByte (s : State) : Word := 0#4 ++ s.phase

/-- The OUT byte, with the derived TONE in bit 7 (20_memory.md R46, offset 0x0D). -/
def outByte (s : State) : Word := BitVec.ofBool (tone s) ++ s.segsel ++ s.ds

/-- The FAULT byte (20_memory.md R46, offset 0x0E). -/
def faultByte (s : State) : Word :=
  match s.fault with
  | none => 0
  | some r => faultCode r

/-- The state image, offset 0x00 first (20_memory.md R46). -/
def image (s : State) : List Word :=
  [ lowByte (pack s.clock), highByte (pack s.clock), lowByte (pack s.alarm), highByte (pack s.alarm),
    flagsByte s, s.countdown, lowByte s.tickAcc, highByte s.tickAcc, s.slowCnt,
    btn0Byte s, btn1Byte s, btn2Byte s, seqByte s, outByte s, faultByte s, 0 ]

/-- The fault register a FAULT byte stands for; a byte of 3 or more describes no state (20_memory.md R46). The image does
not hold the operation that raised it, so the reader supplies it (DESIGN CHOICE, log 13). -/
def faultOfByte (op : Raiser) (b : Word) : Option (Option FaultRecord) :=
  if b = 0 then some none
  else if b = 1 then some (some { which := .clock, op := op })
  else if b = 2 then some (some { which := .alarm, op := op })
  else none

/-- The phase a SEQ byte holds; 10 to 15 describe no state (20_memory.md R46). -/
def phaseOfByte (b : Word) : Option (BitVec 4) :=
  if (b.extractLsb' 0 4).toNat ≤ 9 then some (b.extractLsb' 0 4) else none

/-- The state an image describes, or nothing where it describes none (20_memory.md R46). What no image holds comes from
`base`; the bits the layout fixes at 0 and the derived TONE bit are not read (log 13). -/
def ofImage (op : Raiser) (base : State) (bytes : List Word) : Option State :=
  match bytes with
  | [c0, c1, a0, a1, fl, cd, t0, t1, sc, b0, b1, b2, sq, out, fb, _] => do
    let raw ← buttonOfBits (b0.extractLsb' 0 3)
    let sweepSig ← buttonOfBits (b0.extractLsb' 3 3)
    let prev ← buttonOfBits (b1.extractLsb' 0 3)
    let stable ← buttonOfBits (b1.extractLsb' 3 3)
    let lastStable ← buttonOfBits (b2.extractLsb' 0 3)
    let phase ← phaseOfByte sq
    let fault ← faultOfByte op fb
    some
      { base with
        clock := unpack (c1 ++ c0)
        alarm := unpack (a1 ++ a0)
        sounding := fl.getLsbD 0
        silenced := fl.getLsbD 1
        blinkPhase := fl.getLsbD 2
        asleep := fl.getLsbD 3
        settingAlarm := fl.getLsbD 4
        wakeIE := fl.getLsbD 5
        wakeFlag := fl.getLsbD 6
        idle := fl.getLsbD 7
        countdown := cd
        tickAcc := t1 ++ t0
        slowCnt := sc
        raw := raw
        sweepSig := sweepSig
        edge := b0.getLsbD 6
        prev := prev
        stable := stable
        lastStable := lastStable
        phase := phase
        ds := out.extractLsb' 0 4
        segsel := out.extractLsb' 4 3
        fault := fault }
  | _ => none

end Sys2Proof.Machine
end

