-- ==== Sys2Proof/Machine/TraceText.lean ====
section
/-! DEFINITION. The textual form of an operation and the pseudo-operations (30_encoding.md R72, R73), and how a listed
sequence of operations is handed to the block. -/

namespace Sys2Proof.Machine

/-- The mnemonic of an operation, as spec/opcode_table.json spells it. -/
def mnemonic : Instr → String
  | .reset => "RESET"
  | .tick => "TICK"
  | .wakeEdge => "WAKE_EDGE"
  | .wakeIsr => "WAKE_ISR"
  | .strobe _ => "STROBE"
  | .sweepEnd => "SWEEP_END"
  | .debounce => "DEBOUNCE"
  | .dispatch => "DISPATCH"
  | .autoOff => "AUTO_OFF"
  | .alarmService => "ALARM_SERVICE"
  | .idleCheck => "IDLE_CHECK"
  | .minuteIncr => "MINUTE_INCR"
  | .setIncr _ _ => "SET_INCR"
  | .evalAlarm => "EVAL_ALARM"

/-- The operands of an operation in text (30_encoding.md R72). -/
def operandText : Instr → String
  | .strobe 0 => " 0"
  | .strobe 1 => " 1"
  | .strobe 2 => " 2"
  | .strobe 3 => " 3"
  | .setIncr .clock .slow => " CLOCK, SLOW"
  | .setIncr .clock .fast => " CLOCK, FAST"
  | .setIncr .alarm .slow => " ALARM, SLOW"
  | .setIncr .alarm .fast => " ALARM, FAST"
  | .reset => ""
  | .tick => ""
  | .wakeEdge => ""
  | .wakeIsr => ""
  | .sweepEnd => ""
  | .debounce => ""
  | .dispatch => ""
  | .autoOff => ""
  | .alarmService => ""
  | .idleCheck => ""
  | .minuteIncr => ""
  | .evalAlarm => ""

/-- The input pin an operation reads, if it reads one (20_memory.md R51). -/
def pinRead : Instr → Option InputPin
  | .strobe _ => some .sense
  | .sweepEnd => some .wake
  | .reset => none
  | .tick => none
  | .wakeEdge => none
  | .wakeIsr => none
  | .debounce => none
  | .dispatch => none
  | .autoOff => none
  | .alarmService => none
  | .idleCheck => none
  | .minuteIncr => none
  | .setIncr _ _ => none
  | .evalAlarm => none

/-- A line of a trace: an operation, and the level its pin read is given (30_encoding.md R72). The level of an operation
that reads no pin means nothing. -/
structure TraceLine where
  op : Instr
  level : Bool
deriving DecidableEq, Repr

/-- The annotation of the input a line's operation reads (30_encoding.md R72). -/
def inputText (l : TraceLine) : String :=
  match pinRead l.op with
  | none => ""
  | some .sense => if l.level then " !sense=1" else " !sense=0"
  | some .wake => if l.level then " !wake=1" else " !wake=0"

/-- The textual form of a line (30_encoding.md R72). -/
def lineText (l : TraceLine) : String := mnemonic l.op ++ operandText l.op ++ inputText l

/-- The textual form of a line with the input annotation omitted, which means the level 0 (30_encoding.md R72). -/
def bareText (i : Instr) : String := mnemonic i ++ operandText i

/-- Every operation with every operand: the 20 decodable words (30_encoding.md R59). -/
def allOperations : List Instr :=
  [.reset, .tick, .wakeEdge, .wakeIsr, .strobe 0, .strobe 1, .strobe 2, .strobe 3, .sweepEnd, .debounce, .dispatch,
   .autoOff, .alarmService, .idleCheck, .minuteIncr, .setIncr .clock .slow, .setIncr .clock .fast,
   .setIncr .alarm .slow, .setIncr .alarm .fast, .evalAlarm]

/-- The text before a comment, without the blanks after it (30_encoding.md R72). -/
def withoutComment (line : List Char) : List Char :=
  ((line.takeWhile (· ≠ ';')).reverse.dropWhile (· = ' ')).reverse

/-- Reads a line of a trace in the form `lineText` or `bareText` writes, with a comment after it or not (30_encoding.md
R72, DESIGN CHOICE, log 14). -/
def parseLine (line : String) : Option TraceLine :=
  let text := withoutComment line.toList
  match allOperations.find? (fun i => (bareText i).toList == text) with
  | some i => some { op := i, level := false }
  | none =>
    match allOperations.find? (fun i => (lineText { op := i, level := true }).toList == text) with
    | some i => some { op := i, level := true }
    | none =>
      match allOperations.find? (fun i => (lineText { op := i, level := false }).toList == text) with
      | some i => some { op := i, level := false }
      | none => none

/-- An operation that reads no pin, as a line. -/
def plainLine (i : Instr) : TraceLine := { op := i, level := false }

/-- `SWEEP s0 s1 s2 s3 w` (30_encoding.md R73). -/
def sweepLines (s0 s1 s2 s3 w : Bool) : List TraceLine :=
  [{ op := .strobe 0, level := s0 }, { op := .strobe 1, level := s1 }, { op := .strobe 2, level := s2 },
   { op := .strobe 3, level := s3 }, { op := .sweepEnd, level := w }]

/-- The first two operations of a pass (30_encoding.md R73). -/
def passStart : List TraceLine := [plainLine .alarmService, plainLine .idleCheck]

/-- `PASS s0 s1 s2 s3 w`; `displayed` says whether IDLE_CHECK moved the phase to 2 (30_encoding.md R73). -/
def passLines (displayed : Bool) (s0 s1 s2 s3 w : Bool) : List TraceLine :=
  passStart ++
    if displayed then
      sweepLines s0 s1 s2 s3 w ++ [plainLine .debounce, plainLine .dispatch, plainLine .autoOff]
    else []

/-- `PASS0` (30_encoding.md R73). -/
def pass0Lines (displayed : Bool) : List TraceLine := passLines displayed false false false false false

/-- `TICKS n` (30_encoding.md R73). -/
def ticksLines (n : Nat) : List TraceLine := List.replicate n (plainLine .tick)

/-- `MINUTE` = `TICKS N` (30_encoding.md R73). -/
def minuteLines (p : Params) : List TraceLine := ticksLines p.ticksPerMinute.toNat

/-- The operation words of a trace. -/
def wordsOf (lines : List TraceLine) : List Word := lines.map fun l => encode l.op

/-- The levels the pin reads of a trace are given, in order. -/
def levelsOf (lines : List TraceLine) : List Bool :=
  (lines.filter fun l => (pinRead l.op).isSome).map fun l => l.level

/-- Hands a trace to the block: its words are what the environment schedules, its levels what the pins will read. -/
def State.withTrace (s : State) (lines : List TraceLine) : State :=
  { s with schedule := wordsOf lines, levels := levelsOf lines }

end Sys2Proof.Machine
end

