-- ==== Sys2Proof/Safety.lean ====
section
/-! DEFINITION. What holds of every state a run reaches (10_state.md R44), in the terms the statements use. -/

namespace Sys2Proof.Machine

/-- The ten clauses of 10_state.md R44, in its order. -/
structure ReachedInvariant (s : State) : Prop where
  digitsValid : s.clock.valid = true ∧ s.alarm.valid = true
  countersBounded :
    s.tickAcc.toNat < s.params.ticksPerMinute.toNat ∧ s.slowCnt.toNat < s.params.slowDivisor.toNat
      ∧ s.countdown.toNat ≤ s.params.autoOffTicks.toNat
  blinkHeld : s.settingAlarm = false → s.blinkPhase = true
  asleepNotSetting : s.asleep = true → s.settingAlarm = false
  noSentinel : s.prev ≠ .all ∧ s.stable ≠ .all ∧ s.lastStable ≠ .all ∧ s.sweepSig ≠ .all
  stableIsPrev : s.stable ≠ .none → s.stable = s.prev
  idleAsleep : s.idle = true → s.asleep = true ∧ s.phase = 0 ∧ alarmActive s = false
  pinsReleased :
    s.segsel = 0b111 ∧ (∀ i : Position, s.phase = BitVec.ofNat 4 (3 + i.val) → s.ds = onehot i)
      ∧ ((∀ i : Position, s.phase ≠ BitVec.ofNat 4 (3 + i.val)) → s.ds = 0b0000)
  phaseNamed : s.phase.toNat ≤ 9
  wakePendingArmed : s.params.wakeLatch = false → s.wakeFlag = true → s.wakeIE = true

/-- The clauses of 10_state.md R44, with what the model adds to make them inductive (DEDUCED, log 15): the parameters are
in range, no fault is recorded, a sleeping block stands at the start of a pass, and nothing is applied in isolation. -/
structure RunInvariant (s : State) : Prop where
  reached : ReachedInvariant s
  paramsInRange : s.params.wf = true
  noFaultRecorded : s.fault = none
  asleepAtPassStart : s.asleep = true → s.phase.toNat ≤ 1
  inRun : s.isolated = false

end Sys2Proof.Machine

namespace Sys2Proof.Machine

/-- The outcome with its next state changed, and its faults and refusals as they are. -/
def mapNext (f : State → State) : Host.Outcome State Fault Refusal → Host.Outcome State Fault Refusal
  | .next s => .next (f s)
  | .fault r => .fault r
  | .refused r => .refused r

/-- What a sequence of DEBOUNCE operations accepts: one (stable, edge) pair for each raw sample, the sample standing in
`raw` as SWEEP_END leaves it there (44_debounce_mode.md R107). Nothing where an operation is not performed. -/
def debouncePasses : List ButtonCode → State → Option (List (ButtonCode × Bool))
  | [], _ => some []
  | sample :: rest, s =>
    match exec .debounce { s with raw := sample, phase := 7 } with
    | .next t => (debouncePasses rest t).map fun out => (t.stable, t.edge) :: out
    | .fault _ => none
    | .refused _ => none

/-- The state after `n` ticks and nothing else, the ticks being scheduled as operation words. -/
def afterTicks (n : Nat) (s : State) : Host.Outcome State Fault Refusal :=
  Host.Core.run Sys2Proof.core n { s with schedule := List.replicate n 0x10 }

end Sys2Proof.Machine
end

