-- ==== Sys2Proof/Certificates/Slice0/Obligations.lean ====
section
/-! DEFINITION. The statements about the block, for the provers. Each docstring names the rule of spec/ it formalises; a
clause that rests on the model's own choice says so and names the log entry. -/

open Sys2Proof Sys2Proof.Machine

/-! ### Words and steps -/

/-- 30_encoding.md section 1: every defined operation word decodes to the operation its row names, operands read from
the bits the rule gives them. -/
def Obligations.DefinedWordsDecodeAsTheMapSays : Prop :=
  decode 0x00 = .operation .reset ∧ decode 0x10 = .operation .tick ∧ decode 0x20 = .operation .wakeEdge
    ∧ decode 0x21 = .operation .wakeIsr ∧ decode 0x30 = .operation (.strobe 0) ∧ decode 0x31 = .operation (.strobe 1)
    ∧ decode 0x32 = .operation (.strobe 2) ∧ decode 0x33 = .operation (.strobe 3)
    ∧ decode 0x40 = .operation .sweepEnd ∧ decode 0x50 = .operation .debounce ∧ decode 0x60 = .operation .dispatch
    ∧ decode 0x70 = .operation .autoOff ∧ decode 0x80 = .operation .alarmService
    ∧ decode 0x90 = .operation .idleCheck ∧ decode 0xA0 = .operation .minuteIncr
    ∧ decode 0xB0 = .operation (.setIncr .clock .slow) ∧ decode 0xB1 = .operation (.setIncr .alarm .slow)
    ∧ decode 0xB2 = .operation (.setIncr .clock .fast) ∧ decode 0xB3 = .operation (.setIncr .alarm .fast)
    ∧ decode 0xC0 = .operation .evalAlarm

/-- 30_encoding.md R61: the words the rule lists are invalid and a step refuses them; every other word names an
operation. -/
def Obligations.UnlistedWordsAreInvalidAndRefused : Prop :=
  ∀ w : Word,
    let listed : Prop :=
      (0x01 ≤ w ∧ w ≤ 0x0F) ∨ (0x11 ≤ w ∧ w ≤ 0x1F) ∨ (0x22 ≤ w ∧ w ≤ 0x2F) ∨ (0x34 ≤ w ∧ w ≤ 0x3F)
        ∨ (0x41 ≤ w ∧ w ≤ 0x4F) ∨ (0x51 ≤ w ∧ w ≤ 0x5F) ∨ (0x61 ≤ w ∧ w ≤ 0x6F) ∨ (0x71 ≤ w ∧ w ≤ 0x7F)
        ∨ (0x81 ≤ w ∧ w ≤ 0x8F) ∨ (0x91 ≤ w ∧ w ≤ 0x9F) ∨ (0xA1 ≤ w ∧ w ≤ 0xAF) ∨ (0xB4 ≤ w ∧ w ≤ 0xBF)
        ∨ (0xC1 ≤ w ∧ w ≤ 0xFF)
    (listed → decode w = .invalid w
      ∧ ∀ (s : State) (rest : List Word), s.schedule = w :: rest → step s = .refused (.invalidWord w))
    ∧ (¬ listed → ∃ i : Instr, decode w = .operation i)

/-- 30_encoding.md section 1: the decoder reads back what the encoder writes, and every word it accepts is the word the
encoder writes for that operation. -/
def Obligations.EncodeAndDecodeAgree : Prop :=
  (∀ i : Instr, decode (encode i) = .operation i)
    ∧ ∀ (w : Word) (i : Instr), decode w = .operation i → encode i = w

/-- 20_memory.md section 3: a step performs the operation the environment has scheduled next, and takes its word off
the schedule. The schedule is the model's (log 1). -/
def Obligations.StepPerformsTheScheduledWord : Prop :=
  ∀ (s : State) (w : Word) (rest : List Word) (i : Instr),
    s.schedule = w :: rest → decode w = .operation i → (i.performedInRun = true ∨ s.isolated = true) →
      step s = exec i { s with schedule := rest, isolated := false }

/-- 30_encoding.md section 1 (the sub-operation words): in a run, a step performs no sub-operation on its own. The
refusal's name is the model's (log 7). -/
def Obligations.SubOperationsAreNoStepsOfARun : Prop :=
  ∀ (s : State) (w : Word) (rest : List Word) (i : Instr),
    s.schedule = w :: rest → decode w = .operation i → s.isolated = false →
      (i = .minuteIncr ∨ (∃ t f, i = .setIncr t f) ∨ i = .evalAlarm) → step s = .refused (.notInRun i)

/-- 20_memory.md section 3: with nothing scheduled, a block without a fault always goes on, by an operation of the tick
timer, the wake pin, the wake interrupt or the main loop that is enabled there. That a free value makes the choice is the
model's (log 1); the statement holds for every value of it. -/
def Obligations.AnUnscheduledStepPerformsAnEnabledOperation : Prop :=
  ∀ s : State, s.schedule = [] → s.fault = none →
    ∃ (i : Instr) (t : State),
      (agentOf i = .tickTimer ∨ agentOf i = .wakePin ∨ agentOf i = .wakeInterrupt ∨ agentOf i = .mainLoop)
        ∧ step s = exec i { s with draws := s.draws + 1, isolated := false } ∧ step s = .next t

/-- Every operation completes somewhere: placed by withFetchWord in ANY state, its table word decodes to it and the very
next step is that operation, performed in the selected state, with its word off the schedule and the isolation mark
cleared; it answers a next state. The selection changes only what enables the operation: the fault record, the idle wait,
the phase (to the operation's own), the armed and pending wake interrupt; a RESET needs none of it. The selection is the
model's (DESIGN CHOICE, log 2). -/
def Obligations.EverySelectedWordIsPerformedNext : Prop :=
  ∀ (s : State) (i : Instr),
    let u : State := { selectOperation i s with isolated := false }
    decodeTableWord 8 (encode i).toNat = some i
      ∧ step (s.withFetchWord 8 (encode i).toNat) = exec i u
      ∧ (∃ t : State, exec i u = .next t)
      ∧ u = { s with
          fault := if i = .reset then s.fault else none
          idle := if agentOf i = .mainLoop then false else s.idle
          phase := (phaseOf i).getD s.phase
          wakeIE := if i = .wakeIsr then true else s.wakeIE
          wakeFlag := if i = .wakeIsr then true else s.wakeFlag
          isolated := false }

/-! ### Power-on -/

/-- 10_state.md section 4 (the reset table) and 70_reset_and_hazards.md section 1: after RESET every register holds the
value of the table, and the output trace is empty. That RESET is performed from any state, a faulted one too, and that it
keeps the parameters, the schedule, the isolation mark, the levels and the count of draws, is the model's (DESIGN CHOICE,
log 6). -/
def Obligations.ResetLeavesTheTabledValues : Prop :=
  ∀ s : State, ∃ t : State,
    exec .reset s = .next t
      ∧ t = { State.reset with
                params := s.params, schedule := s.schedule, isolated := s.isolated, levels := s.levels,
                draws := s.draws }
      ∧ t.clock = { minuteUnits := 1, minuteTens := 0, hourUnits := 0, hourTens := 0 }
      ∧ t.alarm = { minuteUnits := 0, minuteTens := 0, hourUnits := 7, hourTens := 0 }
      ∧ t.sounding = false ∧ t.silenced = false ∧ t.settingAlarm = false ∧ t.asleep = true ∧ t.blinkPhase = true
      ∧ t.countdown = 0 ∧ t.wakeIE = true ∧ t.wakeFlag = false ∧ t.tickAcc = 0 ∧ t.slowCnt = 0
      ∧ t.raw = .none ∧ t.sweepSig = .none ∧ t.prev = .none ∧ t.stable = .none ∧ t.lastStable = .none
      ∧ t.edge = false ∧ t.phase = 0 ∧ t.idle = false ∧ t.fault = none ∧ t.ds = 0b0000 ∧ t.segsel = 0b111
      ∧ t.trace = []

/-- 70_reset_and_hazards.md R134: after RESET the main loop stands at ALARM_SERVICE, the mode is Sleeping, the tick is
enabled, the wake interrupt is armed and not pending. -/
def Obligations.ResetEntersSleepingArmedAtAlarmService : Prop :=
  effMode State.reset = .sleeping ∧ State.reset.wakeIE = true ∧ State.reset.wakeFlag = false
    ∧ (∃ t, exec .alarmService State.reset = .next t) ∧ (∃ t, exec .tick State.reset = .next t)
    ∧ exec .wakeIsr State.reset = .refused (.notEnabled .wakeIsr)

/-! ### Digit sets -/

/-- 41_clock_alarm.md R79: on valid digit sets the minute of day is a bijection onto 0..1439. -/
def Obligations.MinuteOfDayIsABijection : Prop :=
  (∀ D : DigitSet, D.valid = true → minuteOfDay D < 1440)
    ∧ (∀ D E : DigitSet, D.valid = true → E.valid = true → (D = E ↔ minuteOfDay D = minuteOfDay E))
    ∧ (∀ n : Nat, n < 1440 → ∃ D : DigitSet, D.valid = true ∧ minuteOfDay D = n)

/-- 41_clock_alarm.md R80: BCD_INCR keeps validity, adds one minute modulo a day, returns after 1440 applications and not
before, and visits every valid digit set exactly once. -/
def Obligations.BcdIncrementRunsThroughTheDay : Prop :=
  ∀ D : DigitSet, D.valid = true →
    (bcdIncr D).valid = true ∧ minuteOfDay (bcdIncr D) = (minuteOfDay D + 1) % 1440
      ∧ bcdIncr^[1440] D = D
      ∧ (∀ k : Nat, 0 < k → k < 1440 → bcdIncr^[k] D ≠ D)
      ∧ ∀ E : DigitSet, E.valid = true → ∃ k : Nat, k < 1440 ∧ bcdIncr^[k] D = E
          ∧ ∀ j : Nat, j < 1440 → bcdIncr^[j] D = E → j = k

/-- 40_digit_codec.md (the table and ENCODE): the ten masks, none for a value above 9, and no mask equal to the dash.
Digits 2 to 7 and the dash are the spec's general knowledge (93_implementation_defined.md K1, K2; log 11). -/
def Obligations.DigitCodecTable : Prop :=
  encodeDigit 0 = some 0x3F ∧ encodeDigit 1 = some 0x06 ∧ encodeDigit 2 = some 0x5B ∧ encodeDigit 3 = some 0x4F
    ∧ encodeDigit 4 = some 0x66 ∧ encodeDigit 5 = some 0x6D ∧ encodeDigit 6 = some 0x7D
    ∧ encodeDigit 7 = some 0x07 ∧ encodeDigit 8 = some 0x7F ∧ encodeDigit 9 = some 0x6F
    ∧ (∀ d : Digit, 9 < d.toNat → encodeDigit d = none)
    ∧ (∀ d : Digit, encodeDigit d ≠ some dashMask) ∧ (∀ d : Digit, encodeDigit d = some 0x7F → d = 8)

/-! ### Clock and alarm -/

/-- 41_clock_alarm.md R81: MINUTE_INCR advances a valid clock and nothing else, and raises InvalidDigit on an invalid
one. -/
def Obligations.MinuteIncrAdvancesTheClock : Prop :=
  encode .minuteIncr = 0xA0 ∧ ∀ s : State,
    (s.fault = none → s.clock.valid = true → exec .minuteIncr s = .next { s with clock := bcdIncr s.clock })
    ∧ (s.fault = none → s.clock.valid = false →
        exec .minuteIncr s = .next { s with fault := some { which := .clock, op := .minuteIncr } })

/-- 41_clock_alarm.md R82: SET_INCR steps its digit set on every fast call and on every K-th slow call, counts slow calls
in the shared sub-counter, and raises InvalidDigit on an invalid target. -/
def Obligations.SetIncrStepsItsTarget : Prop :=
  (∀ (t : Target) (f : Rate), encode (.setIncr t f) =
      0xB0 ||| ((if f = .fast then 1 else 0) <<< 1) ||| (if t = .alarm then 1 else 0))
  ∧ ∀ s : State, s.fault = none →
    (s.clock.valid = true → exec (.setIncr .clock .fast) s = .next { s with clock := bcdIncr s.clock })
    ∧ (s.alarm.valid = true → exec (.setIncr .alarm .fast) s = .next { s with alarm := bcdIncr s.alarm })
    ∧ (s.clock.valid = true → s.slowCnt.toNat + 1 ≥ s.params.slowDivisor.toNat →
        exec (.setIncr .clock .slow) s = .next { s with slowCnt := 0, clock := bcdIncr s.clock })
    ∧ (s.alarm.valid = true → s.slowCnt.toNat + 1 ≥ s.params.slowDivisor.toNat →
        exec (.setIncr .alarm .slow) s = .next { s with slowCnt := 0, alarm := bcdIncr s.alarm })
    ∧ (∀ t : Target, (digitsOf s t).valid = true → s.slowCnt.toNat + 1 < s.params.slowDivisor.toNat →
        exec (.setIncr t .slow) s = .next { s with slowCnt := s.slowCnt + 1 })
    ∧ (∀ (t : Target) (f : Rate), (digitsOf s t).valid = false →
        exec (.setIncr t f) s = .next { s with fault := some { which := t, op := .setIncr } })

/-- 41_clock_alarm.md R83: EVAL_ALARM sets `sounding` on equality, clears both flags on a mismatch, and checks the clock
before the alarm. -/
def Obligations.EvalAlarmComparesTheDigitSets : Prop :=
  encode .evalAlarm = 0xC0 ∧ ∀ s : State, s.fault = none →
    (s.clock.valid = true → s.alarm.valid = true →
      (s.clock = s.alarm → exec .evalAlarm s = .next { s with sounding := true })
      ∧ (s.clock ≠ s.alarm → exec .evalAlarm s = .next { s with sounding := false, silenced := false }))
    ∧ (s.clock.valid = false →
        exec .evalAlarm s = .next { s with fault := some { which := .clock, op := .evalAlarm } })
    ∧ (s.clock.valid = true → s.alarm.valid = false →
        exec .evalAlarm s = .next { s with fault := some { which := .alarm, op := .evalAlarm } })

/-! ### The tick -/

/-- 42_tick_scheduler.md R88, R89: a tick on valid digit sets does its five steps in order, so that the alarm is compared
with the clock just advanced; the blink phase toggles in Setting and is forced true otherwise; nothing else changes. -/
def Obligations.TickDoesItsFiveStepsInOrder : Prop :=
  ∀ s : State, s.fault = none → s.clock.valid = true → s.alarm.valid = true →
    let minuteEnds : Prop := s.tickAcc.toNat + 1 ≥ s.params.ticksPerMinute.toNat
    (minuteEnds →
      exec .tick s = .next { s with
        blinkPhase := if s.settingAlarm then !s.blinkPhase else true
        tickAcc := 0
        clock := bcdIncr s.clock
        sounding := decide (bcdIncr s.clock = s.alarm)
        silenced := if bcdIncr s.clock = s.alarm then s.silenced else false
        countdown := if s.countdown = 0 then 0 else s.countdown - 1
        idle := false })
    ∧ (¬ minuteEnds →
      exec .tick s = .next { s with
        blinkPhase := if s.settingAlarm then !s.blinkPhase else true
        tickAcc := s.tickAcc + 1
        sounding := decide (s.clock = s.alarm)
        silenced := if s.clock = s.alarm then s.silenced else false
        countdown := if s.countdown = 0 then 0 else s.countdown - 1
        idle := false })

/-- 42_tick_scheduler.md (TICK, exceptions) and 60_exceptions.md section 1 (at most one fault): on an invalid digit set a tick keeps the writes of
the steps before the failing check, records that check's fault, and does none of the steps after it. -/
def Obligations.TickEndsAtItsFirstFailingCheck : Prop :=
  ∀ s : State, s.fault = none →
    let blink : Bool := if s.settingAlarm then !s.blinkPhase else true
    let minuteEnds : Prop := s.tickAcc.toNat + 1 ≥ s.params.ticksPerMinute.toNat
    (minuteEnds → s.clock.valid = false →
      exec .tick s = .next { s with
        blinkPhase := blink, tickAcc := 0, fault := some { which := .clock, op := .minuteIncr } })
    ∧ (¬ minuteEnds → s.clock.valid = false →
      exec .tick s = .next { s with
        blinkPhase := blink, tickAcc := s.tickAcc + 1, fault := some { which := .clock, op := .evalAlarm } })
    ∧ (minuteEnds → s.clock.valid = true → s.alarm.valid = false →
      exec .tick s = .next { s with
        blinkPhase := blink, tickAcc := 0, clock := bcdIncr s.clock,
        fault := some { which := .alarm, op := .evalAlarm } })
    ∧ (¬ minuteEnds → s.clock.valid = true → s.alarm.valid = false →
      exec .tick s = .next { s with
        blinkPhase := blink, tickAcc := s.tickAcc + 1, fault := some { which := .alarm, op := .evalAlarm } })

/-- 42_tick_scheduler.md, consequences for a run without buttons (3): after n ticks the clock stands (tickAcc + n) div N minutes
later, modulo a day, and the accumulator at the remainder. From `tickAcc = 0` this is the rule's own formula. -/
def Obligations.ClockAdvancesOneMinuteEveryNTicks : Prop :=
  ∀ (s : State) (n : Nat),
    s.fault = none → s.clock.valid = true → s.alarm.valid = true →
    s.tickAcc.toNat < s.params.ticksPerMinute.toNat →
    ∃ t : State, afterTicks n s = .next t
      ∧ minuteOfDay t.clock
          = (minuteOfDay s.clock + (s.tickAcc.toNat + n) / s.params.ticksPerMinute.toNat) % 1440
      ∧ t.tickAcc.toNat = (s.tickAcc.toNat + n) % s.params.ticksPerMinute.toNat
      ∧ t.clock.valid = true ∧ t.alarm = s.alarm ∧ t.fault = none

/-- 42_tick_scheduler.md, consequences for a run without buttons (1): n ticks take the countdown down by n and no lower than 0, so
from A it reaches 0 at the A-th tick and not before; AUTO_OFF, reached awake with no active alarm, enters Sleeping exactly
when the countdown is 0. -/
def Obligations.CountdownRunsOutAfterItsTicks : Prop :=
  (∀ (s : State) (n : Nat), s.fault = none → s.clock.valid = true → s.alarm.valid = true →
    ∃ t : State, afterTicks n s = .next t ∧ t.countdown.toNat = s.countdown.toNat - n ∧ t.asleep = s.asleep
      ∧ t.phase = s.phase)
  ∧ ∀ s : State, s.fault = none → s.idle = false → s.phase = 9 → s.asleep = false → alarmActive s = false →
    ∃ t : State, exec .autoOff s = .next t ∧ (t.asleep = true ↔ s.countdown = 0)

/-- 42_tick_scheduler.md, consequences for a run without buttons (2): in Setting the blink phase after n ticks is the one before them
when n is even and its negation when n is odd; out of Setting it is true after every tick. -/
def Obligations.BlinkPhaseAlternatesInSetting : Prop :=
  ∀ (s : State) (n : Nat), s.fault = none → s.clock.valid = true → s.alarm.valid = true →
    ∃ t : State, afterTicks n s = .next t ∧ t.settingAlarm = s.settingAlarm
      ∧ (s.settingAlarm = true → t.blinkPhase = if n % 2 = 0 then s.blinkPhase else !s.blinkPhase)
      ∧ (s.settingAlarm = false → 0 < n → t.blinkPhase = true)

/-- 41_clock_alarm.md R86: with only ticks, (1) a tick that leaves a mismatch leaves both flags clear; (2) a silence does
not reach the next match; (3) a match lasts exactly N ticks. -/
def Obligations.AlarmIsNotStickyAndLastsOneMinute : Prop :=
  (∀ s t : State, exec .tick s = .next t → t.fault = none → t.clock ≠ t.alarm →
    t.sounding = false ∧ t.silenced = false)
  ∧ (∀ (s u t : State) (j k : Nat), 0 < j → j < k → s.fault = none → s.clock.valid = true → s.alarm.valid = true →
      afterTicks j s = .next u → u.clock ≠ u.alarm → afterTicks k s = .next t → t.clock = t.alarm →
      t.sounding = true ∧ t.silenced = false)
  ∧ (∀ (s : State) (k : Nat), s.fault = none → s.clock.valid = true → s.alarm.valid = true →
      s.tickAcc.toNat + 1 = s.params.ticksPerMinute.toNat →
      bcdIncr s.clock = s.alarm → 0 < k →
      (k ≤ s.params.ticksPerMinute.toNat → ∃ t : State, afterTicks k s = .next t ∧ t.sounding = true)
      ∧ (k = s.params.ticksPerMinute.toNat + 1 →
          ∃ t : State, afterTicks k s = .next t ∧ t.sounding = false ∧ t.silenced = false))

/-! ### The display -/

/-- 43_display_mux.md R98, R99 and 30_encoding.md R68: STROBE i on a valid shown set drives the select line of position
i (the code 1, 2, 4 or 8), the seven sub-phases of the mask of the shown set's element i and the blank, in that order,
attributes an asserted sense level to slot i, and moves the phase on. The mask is the digit's, or the dash while the blink
phase is false (0x40 is the spec's general knowledge, log 11). The level is the one supplied, else a free value (DESIGN
CHOICE, log 3). -/
def Obligations.StrobeRendersItsSlotAndSamples : Prop :=
  ∀ (s : State) (i : Position), s.fault = none → s.idle = false → s.phase = BitVec.ofNat 4 (2 + i.val) →
    let D : DigitSet := if s.settingAlarm then s.alarm else s.clock
    let element : Digit :=
      if i = 0 then D.minuteUnits else if i = 1 then D.minuteTens else if i = 2 then D.hourUnits else D.hourTens
    let line : BitVec 4 := if i = 0 then 0b0001 else if i = 1 then 0b0010 else if i = 2 then 0b0100 else 0b1000
    let code : ButtonCode := if i = 0 then .slot0 else if i = 1 then .slot1 else if i = 2 then .slot2 else .slot3
    D.valid = true →
    ∃ mask : SegMask,
      (s.blinkPhase = true → encodeDigit element = some mask)
      ∧ (s.blinkPhase = false → mask = 0x40)
      ∧ exec (.strobe i) s = .next { s with
          ds := line
          segsel := 7
          trace := s.trace ++ [.ds line]
            ++ ([0, 1, 2, 3, 4, 5, 6].map fun k : Nat =>
                  PinEvent.segsel (if mask.getLsbD k then BitVec.ofNat 3 k else 7))
            ++ [.segsel 7]
          sweepSig := if pinLevel .sense s then code else s.sweepSig
          phase := s.phase + 1
          levels := s.levels.tail
          draws := if s.levels = [] then s.draws + 1 else s.draws }
      ∧ (∀ level rest, s.levels = level :: rest → pinLevel .sense s = level)

/-- 43_display_mux.md section 3 (STROBE, exceptions): an invalid shown set raises InvalidDigit, and nothing is written to
a pin, no pin is read, the phase stays. -/
def Obligations.StrobeRaisesBeforeAnyPinWrite : Prop :=
  ∀ (s : State) (i : Position), s.fault = none → s.idle = false → s.phase = BitVec.ofNat 4 (2 + i.val) →
    (shown s).valid = false →
    exec (.strobe i) s = .next { s with
      fault := some { which := if s.settingAlarm then .alarm else .clock, op := .strobe } }

/-- 43_display_mux.md R100: SWEEP_END releases the select lines, publishes the sentinel when the wake level is asserted
and the sweep's code when it is not, and clears the sweep's code; it is enabled at phase 6 only. The level is the one
supplied, else a free value; that a read takes one supplied level, or counts one draw, is the model's (DESIGN CHOICE, log
3). -/
def Obligations.SweepEndPublishesTheRawSignal : Prop :=
  encode .sweepEnd = 0x40 ∧ ∀ s : State,
    (s.fault = none ∧ s.idle = false ∧ s.phase = 6 →
      exec .sweepEnd s = .next { s with
        ds := 0b0000
        trace := s.trace ++ [.ds 0b0000]
        raw := if pinLevel .wake s then .all else s.sweepSig
        sweepSig := .none
        phase := 7
        levels := s.levels.tail
        draws := if s.levels = [] then s.draws + 1 else s.draws })
    ∧ (¬ (s.fault = none ∧ s.idle = false ∧ s.phase = 6) → exec .sweepEnd s = .refused (.notEnabled .sweepEnd))

/-- 43_display_mux.md section 3 (STROBE and SWEEP_END together): a whole sweep publishes the sentinel when the wake level
was asserted, else the highest slot that was asserted, else NONE; it leaves the select lines released, the phase at
DEBOUNCE, 37 more events on the trace, and the digit sets, flags and counters as they were. -/
def Obligations.ASweepPublishesTheHighestAssertedSlot : Prop :=
  ∀ (s : State) (s0 s1 s2 s3 w : Bool),
    s.fault = none → s.idle = false → s.phase = 2 → s.sweepSig = .none → (shown s).valid = true →
    ∃ t : State,
      Host.Core.run Sys2Proof.core 5 (s.withTrace (sweepLines s0 s1 s2 s3 w)) = .next t
        ∧ t.raw = (if w then .all else if s3 then .slot3 else if s2 then .slot2 else if s1 then .slot1
                    else if s0 then .slot0 else .none)
        ∧ t.trace.length = s.trace.length + 37
        ∧ { t with raw := s.raw, trace := s.trace } =
            { s with ds := 0b0000, segsel := 0b111, phase := 7, schedule := [], levels := [], isolated := false }

/-- 43_display_mux.md R101: while the main loop is idle or the block sleeps, no STROBE is performed and the display is
dark, in every state that meets the invariant of reached states. -/
def Obligations.DisplayIsDarkWhileAsleep : Prop :=
  ∀ s : State, RunInvariant s → (s.idle = true ∨ s.asleep = true) →
    s.ds = 0b0000 ∧ s.segsel = 7 ∧ ∀ i : Position, exec (.strobe i) s = .refused (.notEnabled (.strobe i))

/-- 70_reset_and_hazards.md section 3 (tearing): inside a sweep, of the operations of a run other than RESET only TICK
changes what the display shows. -/
def Obligations.OnlyATickTearsASweep : Prop :=
  ∀ (s t : State) (i : Instr), 2 ≤ s.phase.toNat → s.phase.toNat ≤ 6 → i.performedInRun = true → i ≠ .reset →
    i ≠ .tick → exec i s = .next t →
    t.clock = s.clock ∧ t.alarm = s.alarm ∧ t.settingAlarm = s.settingAlarm ∧ t.blinkPhase = s.blinkPhase

/-! ### Debounce and modes -/

/-- 44_debounce_mode.md R105: ALARM_SERVICE wakes the display and leaves Setting while the alarm is active, and otherwise
changes only the phase; it is enabled at phase 0 only. -/
def Obligations.AlarmServiceBringsTheDisplayToTheAlarm : Prop :=
  encode .alarmService = 0x80 ∧ ∀ s : State,
    (s.fault = none ∧ s.idle = false ∧ s.phase = 0 →
      (s.sounding = true ∧ s.silenced = false →
        exec .alarmService s
          = .next { s with asleep := false, settingAlarm := false, blinkPhase := true, phase := 1 })
      ∧ (¬ (s.sounding = true ∧ s.silenced = false) → exec .alarmService s = .next { s with phase := 1 }))
    ∧ (¬ (s.fault = none ∧ s.idle = false ∧ s.phase = 0) →
        exec .alarmService s = .refused (.notEnabled .alarmService))

/-- 44_debounce_mode.md R106: IDLE_CHECK waits when asleep with no active alarm, goes back to phase 0 when asleep, and to
phase 2 when awake; it is enabled at phase 1 only. -/
def Obligations.IdleCheckWaitsOnlyAsleepAndQuiet : Prop :=
  encode .idleCheck = 0x90 ∧ ∀ s : State,
    (s.fault = none ∧ s.idle = false ∧ s.phase = 1 →
      (s.asleep = true → ¬ (s.sounding = true ∧ s.silenced = false) →
        exec .idleCheck s = .next { s with idle := true, phase := 0 })
      ∧ (s.asleep = true → s.sounding = true ∧ s.silenced = false → exec .idleCheck s = .next { s with phase := 0 })
      ∧ (s.asleep = false → exec .idleCheck s = .next { s with phase := 2 }))
    ∧ (¬ (s.fault = none ∧ s.idle = false ∧ s.phase = 1) → exec .idleCheck s = .refused (.notEnabled .idleCheck))

/-- 44_debounce_mode.md R107: DEBOUNCE takes the sentinel as NONE and resets `raw`, accepts a sample that equals the
previous pass's and discards one that differs, and sets `edge` on a newly accepted code; enabled at phase 7 only. -/
def Obligations.DebounceAcceptsARepeatedSample : Prop :=
  encode .debounce = 0x50 ∧ ∀ s : State,
    (s.fault = none ∧ s.idle = false ∧ s.phase = 7 →
      let sample : ButtonCode := if s.raw = .all then .none else s.raw
      (sample ≠ s.prev →
          exec .debounce s = .next { s with
            raw := sample, prev := sample, stable := .none, edge := false, lastStable := .none, phase := 8 })
        ∧ (sample = s.prev →
          exec .debounce s = .next { s with
            raw := sample, stable := sample, edge := decide (sample ≠ .none ∧ sample ≠ s.lastStable),
            lastStable := sample, phase := 8 }))
    ∧ (¬ (s.fault = none ∧ s.idle = false ∧ s.phase = 7) → exec .debounce s = .refused (.notEnabled .debounce))

/-- 44_debounce_mode.md section 7 (1): the raw sequence A, A, B, B, B of two different slot codes is accepted on passes
2, 4 and 5, with press edges on passes 2 and 4. -/
def Obligations.FivePassesGiveTwoPressEdges : Prop :=
  ∀ (s : State) (i j : Position), i ≠ j → s.fault = none → s.idle = false → s.prev = .none → s.lastStable = .none →
    debouncePasses [slotCode i, slotCode i, slotCode j, slotCode j, slotCode j] s
      = some [(.none, false), (slotCode i, true), (.none, false), (slotCode j, true), (slotCode j, false)]

/-- 44_debounce_mode.md section 7 (2, 3, 4): an accepted code stood in `raw` on its pass and on the pass before, so never
on the first pass and never from one pass alone, and it is never the sentinel; a press edge comes only with an accepted
code that the pass before had not accepted. -/
def Obligations.AcceptedCodesWereReadOnTwoPasses : Prop :=
  ∀ (s : State) (raws : List ButtonCode), s.fault = none → s.idle = false → s.prev = .none → s.lastStable = .none →
    ∃ out : List (ButtonCode × Bool), debouncePasses raws s = some out ∧ out.length = raws.length
      ∧ ∀ (k : Nat) (c : ButtonCode) (e : Bool), out[k]? = some (c, e) →
          (c ≠ .none → c ≠ .all ∧ 0 < k ∧ raws[k]? = some c ∧ raws[k - 1]? = some c)
          ∧ (e = true → c ≠ .none ∧ ∀ e' : Bool, out[k - 1]? ≠ some (c, e'))

/-- 44_debounce_mode.md R110: DISPATCH does nothing without an accepted code; with one it reloads the countdown and
either only silences an active alarm or does the button's function on the digit set Setting selects. The function is the
button map's entry for the slot (00_scope.md R9). -/
def Obligations.DispatchActsOnTheAcceptedCode : Prop :=
  encode .dispatch = 0x60 ∧ ∀ s : State,
    (¬ (s.fault = none ∧ s.idle = false ∧ s.phase = 8) → exec .dispatch s = .refused (.notEnabled .dispatch))
    ∧ (s.fault = none ∧ s.idle = false ∧ s.phase = 8 →
      (s.stable = .none → exec .dispatch s = .next { s with phase := 9 })
      ∧ (s.stable ≠ .none → s.sounding = true ∧ s.silenced = false →
          exec .dispatch s = .next { s with countdown := s.params.autoOffTicks, silenced := true, phase := 9 })
      ∧ ∀ f : ButtonFunction,
          (s.stable = .slot0 ∧ f = s.params.buttonMap.slot0 ∨ s.stable = .slot1 ∧ f = s.params.buttonMap.slot1
            ∨ s.stable = .slot2 ∧ f = s.params.buttonMap.slot2 ∨ s.stable = .slot3 ∧ f = s.params.buttonMap.slot3) →
          ¬ (s.sounding = true ∧ s.silenced = false) →
          (f = .mode → s.edge = true →
            exec .dispatch s = .next { s with
              countdown := s.params.autoOffTicks, settingAlarm := !s.settingAlarm, blinkPhase := true, phase := 9 })
          ∧ (f = .mode → s.edge = false →
            exec .dispatch s = .next { s with countdown := s.params.autoOffTicks, phase := 9 })
          ∧ (f = .nofunc →
            exec .dispatch s = .next { s with countdown := s.params.autoOffTicks, phase := 9 })
          ∧ (∀ (r : Rate) (u : State),
              f = (match r with | .slow => .slow | .fast => .fast) →
              exec (.setIncr (if s.settingAlarm then .alarm else .clock) r) s = .next u →
              (u.fault = none →
                exec .dispatch s = .next { u with countdown := s.params.autoOffTicks, phase := 9 })
              ∧ (u.fault ≠ none → ∃ t : State, exec .dispatch s = .next t
                  ∧ t = { u with countdown := s.params.autoOffTicks, phase := t.phase })))

/-- 60_exceptions.md section 1 (the raise ends the operation): a DISPATCH whose set finds its digit set invalid keeps the
reload of the countdown, records the fault, writes no digit and no sub-counter, and ends before it writes the phase. That
the phase stays at 8 is the model's reading (log 9). -/
def Obligations.AFaultingSetEndsDispatchBeforeThePhase : Prop :=
  ∀ (s : State) (i : Position), s.fault = none → s.idle = false → s.phase = 8 → s.stable = slotCode i →
    ¬ (s.sounding = true ∧ s.silenced = false) →
    buttonFunction s.params.buttonMap i = .slow ∨ buttonFunction s.params.buttonMap i = .fast →
    (if s.settingAlarm then s.alarm else s.clock).valid = false →
    exec .dispatch s = .next { s with
      countdown := s.params.autoOffTicks
      fault := some { which := if s.settingAlarm then .alarm else .clock, op := .setIncr } }

/-- 44_debounce_mode.md R113: AUTO_OFF enters Sleeping exactly when the block is awake, the countdown is 0 and the alarm
is not active; it is enabled at phase 9 only. -/
def Obligations.AutoOffEntersSleeping : Prop :=
  encode .autoOff = 0x70 ∧ ∀ s : State,
    let due : Prop := s.asleep = false ∧ s.countdown = 0 ∧ ¬ (s.sounding = true ∧ s.silenced = false)
    (s.fault = none ∧ s.idle = false ∧ s.phase = 9 →
      (due → exec .autoOff s = .next { s with
        asleep := true, settingAlarm := false, blinkPhase := true, wakeIE := true, phase := 0 })
      ∧ (¬ due → exec .autoOff s = .next { s with phase := 0 }))
    ∧ (¬ (s.fault = none ∧ s.idle = false ∧ s.phase = 9) → exec .autoOff s = .refused (.notEnabled .autoOff))

/-- 44_debounce_mode.md R114: WAKE_EDGE sets the pending flag when the interrupt is armed or the latch is present, and
has no effect otherwise; it may come at any time without a fault. -/
def Obligations.WakeEdgeIsNotedWhenArmedOrLatched : Prop :=
  encode .wakeEdge = 0x20 ∧ ∀ s : State,
    (s.fault = none →
      (s.wakeIE = true ∨ s.params.wakeLatch = true → exec .wakeEdge s = .next { s with wakeFlag := true })
      ∧ (s.wakeIE = false → s.params.wakeLatch = false → exec .wakeEdge s = .next s))
    ∧ (s.fault ≠ none → exec .wakeEdge s = .refused (.notEnabled .wakeEdge))

/-- 44_debounce_mode.md R115: WAKE_ISR clears its own enable and its pending flag, silences an active alarm, wakes the
display and the main loop and reloads the countdown; it is enabled exactly when armed and pending without a fault. -/
def Obligations.WakeIsrWakesAndCancels : Prop :=
  encode .wakeIsr = 0x21 ∧ ∀ s : State,
    (s.fault = none ∧ s.wakeIE = true ∧ s.wakeFlag = true →
      exec .wakeIsr s = .next { s with
        wakeFlag := false
        wakeIE := false
        silenced := if s.sounding = true ∧ s.silenced = false then true else s.silenced
        asleep := false
        countdown := s.params.autoOffTicks
        idle := false })
    ∧ (¬ (s.fault = none ∧ s.wakeIE = true ∧ s.wakeFlag = true) →
        exec .wakeIsr s = .refused (.notEnabled .wakeIsr))

/-- 70_reset_and_hazards.md section 3 (lost wake edges): while disarmed, an edge is lost without the latch; with it the
edge stays pending, and as soon as AUTO_OFF has entered Sleeping and re-armed, WAKE_ISR is taken and the display wakes. -/
def Obligations.DisarmedWakeEdgesAreLostOrLatched : Prop :=
  ∀ s : State, s.fault = none → s.wakeIE = false →
    (s.params.wakeLatch = false → exec .wakeEdge s = .next s)
    ∧ (s.params.wakeLatch = true → s.idle = false → s.phase = 9 → s.asleep = false → s.countdown = 0 →
        alarmActive s = false →
        ∃ u v w : State, exec .wakeEdge s = .next u ∧ exec .wakeIsr u = .refused (.notEnabled .wakeIsr)
          ∧ exec .autoOff u = .next v ∧ v.asleep = true
          ∧ exec .wakeIsr v = .next w ∧ w.asleep = false ∧ w.countdown = s.params.autoOffTicks)

/-- 70_reset_and_hazards.md section 3 (alarm from Sleeping): the tick that makes the match, then ALARM_SERVICE, wake a
sleeping display; neither reloads the countdown nor disarms the wake interrupt. -/
def Obligations.AnAlarmWakesASleepingDisplay : Prop :=
  ∀ s : State, RunInvariant s → s.asleep = true → s.phase = 0 → s.silenced = false →
    s.tickAcc.toNat + 1 ≥ s.params.ticksPerMinute.toNat → bcdIncr s.clock = s.alarm →
    ∃ t : State,
      Host.Core.run Sys2Proof.core 2 { s with schedule := [0x10, 0x80] } = .next t
        ∧ t.asleep = false ∧ effMode t = .alarmSounding ∧ tone t = true ∧ t.phase = 1 ∧ t.wakeIE = s.wakeIE
        ∧ t.countdown.toNat = s.countdown.toNat - 1 ∧ t.clock = s.alarm

/-! ### The whole machine -/

/-- 44_debounce_mode.md R103: a main-loop operation is performed exactly when there is no fault, the loop is not idle and
`phase` names it; without a fault it sends `phase` where the table says; the interrupt operations neither read nor write
`phase`: with another value there they do the same and leave that value. -/
def Obligations.PhaseNamesTheMainLoopOperation : Prop :=
  (∀ (i : Instr) (s : State) (p : BitVec 4), i = .tick ∨ i = .wakeEdge ∨ i = .wakeIsr →
    exec i { s with phase := p } = mapNext (fun t => { t with phase := p }) (exec i s))
  ∧ ∀ (i : Instr) (p q : BitVec 4),
    (i, p, q) ∈ ([ (.alarmService, 0, 1), (.strobe 0, 2, 3), (.strobe 1, 3, 4), (.strobe 2, 4, 5),
        (.strobe 3, 5, 6), (.sweepEnd, 6, 7), (.debounce, 7, 8), (.dispatch, 8, 9), (.autoOff, 9, 0),
        (.idleCheck, 1, 0), (.idleCheck, 1, 2) ] : List (Instr × BitVec 4 × BitVec 4)) →
    ∀ s : State,
      ((∃ t, exec i s = .next t) ↔ s.fault = none ∧ s.idle = false ∧ s.phase = p)
      ∧ (∀ t, exec i s = .next t → t.fault = none → i ≠ .idleCheck → t.phase = q)
      ∧ (∀ t, exec i s = .next t → i = .idleCheck → t.phase = if s.asleep then 0 else 2)

/-- 60_exceptions.md section 1 (the raise): once a fault is recorded no operation is performed but a RESET, which is a new
run; with nothing scheduled the block has stopped; a step out of a faulted state is that RESET and clears the fault. -/
def Obligations.AFaultIsFinalWithinARun : Prop :=
  ∀ (s : State) (r : FaultRecord), s.fault = some r →
    (∀ i : Instr, i ≠ .reset → exec i s = .refused (.notEnabled i))
    ∧ (s.schedule = [] → step s = .fault (.stopped r))
    ∧ (∀ t : State, step s = .next t → t.fault = none ∧ ∃ rest, s.schedule = 0x00 :: rest)

/-- 60_exceptions.md section 1 (raised by): a fault is recorded only by an operation that found the digit set it names
invalid, and the record names the set and the operation that raised it. -/
def Obligations.OnlyAnInvalidDigitSetRaises : Prop :=
  ∀ (i : Instr) (s t : State) (r : FaultRecord), exec i s = .next t → t.fault = some r → i ≠ .reset ∧
    (digitsOf s r.which).valid = false
      ∧ ((i = .tick ∧ (r = { which := .clock, op := .minuteIncr } ∨ r.op = .evalAlarm))
        ∨ (i = .dispatch ∧ r = { which := target s, op := .setIncr })
        ∨ ((∃ p, i = .strobe p) ∧ r = { which := target s, op := .strobe })
        ∨ (i = .minuteIncr ∧ r = { which := .clock, op := .minuteIncr })
        ∨ ((∃ f, i = .setIncr r.which f) ∧ r.op = .setIncr)
        ∨ (i = .evalAlarm ∧ r.op = .evalAlarm))

/-- 60_exceptions.md section 4 (entry): an interrupt operation never writes the phase, the button registers or the output
pins, nor does it add to the output trace. -/
def Obligations.InterruptsLeaveTheMainLoopAlone : Prop :=
  ∀ (i : Instr) (s t : State), i = .tick ∨ i = .wakeIsr → exec i s = .next t →
    t.phase = s.phase ∧ t.sweepSig = s.sweepSig ∧ t.raw = s.raw ∧ t.prev = s.prev ∧ t.stable = s.stable
      ∧ t.edge = s.edge ∧ t.lastStable = s.lastStable ∧ t.ds = s.ds ∧ t.segsel = s.segsel ∧ t.trace = s.trace
      ∧ t.alarm = s.alarm ∧ t.settingAlarm = s.settingAlarm

/-- 60_exceptions.md R123: when TICK and WAKE_ISR are both enabled either may be performed first, and so may the
main-loop operation that is enabled; WAKE_ISR then TICK leaves the countdown at A - 1, TICK then WAKE_ISR at A. -/
def Obligations.InterruptOrderDecidesTheCountdown : Prop :=
  ∀ s : State, s.fault = none → s.wakeIE = true → s.wakeFlag = true → s.clock.valid = true → s.alarm.valid = true →
    s.params.autoOffTicks ≠ 0 →
    (∃ u t : State, exec .wakeIsr s = .next u ∧ exec .tick u = .next t
      ∧ t.countdown = s.params.autoOffTicks - 1)
    ∧ (∃ u t : State, exec .tick s = .next u ∧ exec .wakeIsr u = .next t ∧ t.countdown = s.params.autoOffTicks)
    ∧ (s.idle = false → s.phase.toNat ≤ 9 → ∃ (i : Instr) (t : State), agentOf i = .mainLoop ∧ exec i s = .next t)

/-- 10_state.md section 3: the flags and control fields change only in the operations the table names as their writers,
and in the direction it names. EVAL_ALARM and SET_INCR write as steps of TICK and DISPATCH too. RESET, which writes every
register, stands apart. -/
def Obligations.FlagsChangeOnlyInTheirWriters : Prop :=
  ∀ (i : Instr) (s t : State), i ≠ .reset → exec i s = .next t →
    (t.sounding ≠ s.sounding → i = .tick ∨ i = .evalAlarm)
    ∧ (t.silenced = true → s.silenced = false → (i = .dispatch ∨ i = .wakeIsr) ∧ alarmActive s = true)
    ∧ (t.silenced = false → s.silenced = true → i = .tick ∨ i = .evalAlarm)
    ∧ (t.blinkPhase ≠ s.blinkPhase → i = .tick ∨ i = .dispatch ∨ i = .alarmService ∨ i = .autoOff)
    ∧ (t.asleep = true → s.asleep = false → i = .autoOff)
    ∧ (t.asleep = false → s.asleep = true → i = .wakeIsr ∨ i = .alarmService)
    ∧ (t.settingAlarm ≠ s.settingAlarm → i = .dispatch
        ∨ ((i = .alarmService ∨ i = .autoOff) ∧ t.settingAlarm = false))
    ∧ (t.wakeIE = true → s.wakeIE = false → i = .autoOff)
    ∧ (t.wakeIE = false → s.wakeIE = true → i = .wakeIsr)
    ∧ (t.wakeFlag = true → s.wakeFlag = false → i = .wakeEdge)
    ∧ (t.wakeFlag = false → s.wakeFlag = true → i = .wakeIsr)
    ∧ (t.idle = true → s.idle = false → i = .idleCheck)
    ∧ (t.idle = false → s.idle = true → i = .tick ∨ i = .wakeIsr)
    ∧ (t.edge ≠ s.edge → i = .debounce)
    ∧ (t.countdown ≠ s.countdown → i = .tick ∨ i = .dispatch ∨ i = .wakeIsr)
    ∧ (t.tickAcc ≠ s.tickAcc → i = .tick)
    ∧ (t.slowCnt ≠ s.slowCnt → i = .dispatch ∨ ∃ d, i = .setIncr d .slow)
    ∧ (t.phase ≠ s.phase → agentOf i = .mainLoop)

/-- 10_state.md section 1: the digit sets, the slow sub-counter, the button registers and the output pins change only in
the operations the rules name as their writers. RESET stands apart. -/
def Obligations.RegistersChangeOnlyInTheirWriters : Prop :=
  ∀ (i : Instr) (s t : State), i ≠ .reset → exec i s = .next t →
    (t.clock ≠ s.clock → i = .tick ∨ (i = .dispatch ∧ target s = .clock) ∨ i = .minuteIncr
        ∨ ∃ f, i = .setIncr .clock f)
    ∧ (t.alarm ≠ s.alarm → (i = .dispatch ∧ target s = .alarm) ∨ ∃ f, i = .setIncr .alarm f)
    ∧ (t.slowCnt ≠ s.slowCnt → i = .dispatch ∨ ∃ d, i = .setIncr d .slow)
    ∧ (t.raw ≠ s.raw → i = .sweepEnd ∨ (i = .debounce ∧ s.raw = .all ∧ t.raw = .none))
    ∧ (t.sweepSig ≠ s.sweepSig → i = .sweepEnd ∨ ∃ p, i = .strobe p)
    ∧ (t.prev ≠ s.prev ∨ t.stable ≠ s.stable ∨ t.lastStable ≠ s.lastStable → i = .debounce)
    ∧ (t.ds ≠ s.ds ∨ t.segsel ≠ s.segsel ∨ t.trace ≠ s.trace → i = .sweepEnd ∨ ∃ p, i = .strobe p)

/-- 44_debounce_mode.md section 1 (the transitions): Sleeping is left only by the wake interrupt or by an active alarm at
ALARM_SERVICE, and entered only by AUTO_OFF with the countdown run out, no active alarm, and the wake interrupt armed. -/
def Obligations.SleepingIsEnteredAndLeftAsNamed : Prop :=
  ∀ (i : Instr) (s t : State), i ≠ .reset → exec i s = .next t →
    (s.asleep = true → t.asleep = false → (i = .wakeIsr ∧ t.countdown = s.params.autoOffTicks)
        ∨ (i = .alarmService ∧ effMode s = .alarmSounding ∧ effMode t = .alarmSounding))
    ∧ (s.asleep = false → t.asleep = true → i = .autoOff ∧ s.countdown = 0 ∧ effMode s ≠ .alarmSounding
        ∧ t.wakeIE = true ∧ effMode t = .sleeping)

/-- 20_memory.md section 2 (widths and pins): the only operations whose effect depends on what the pins give are STROBE
and SWEEP_END: every other operation does the same whatever levels are supplied and whatever has been drawn. -/
def Obligations.PinsReachOnlyStrobeAndSweepEnd : Prop :=
  ∀ (i : Instr) (s : State) (levels : List Bool) (draws : Nat), (∀ p, i ≠ .strobe p) → i ≠ .sweepEnd →
    exec i { s with levels := levels, draws := draws }
      = mapNext (fun t => { t with levels := levels, draws := draws }) (exec i s)

/-- The parameters are fixed for a machine and a step takes at most one word off the schedule (the model's, log 1 and
log 5); the output trace lists pin writes in the order of the operations, so a step other than RESET only adds to its end
(20_memory.md section 3). -/
def Obligations.StepsKeepParametersAndExtendTheTrace : Prop :=
  ∀ s t : State, step s = .next t →
    t.params = s.params ∧ t.schedule = s.schedule.tail
      ∧ ((∃ events : List PinEvent, t.trace = s.trace ++ events ∧ events.length ≤ 9)
          ∨ (s.schedule.head? = some 0x00 ∧ t.trace = []))

/-- The invariant of a run holds in the reset state, for every parameter in range in place of the reset state's
(10_state.md section 5; the added clauses are the model's, log 15). -/
def Obligations.RunInvariantHoldsAtReset : Prop :=
  RunInvariant State.reset ∧ ∀ p : Params, p.wf = true → RunInvariant { State.reset with params := p }

/-- Every step keeps the invariant of a run, from every state that meets it (10_state.md section 5; the added clauses are
the model's, log 15). -/
def Obligations.EveryStepKeepsTheRunInvariant : Prop :=
  ∀ s t : State, RunInvariant s → step s = .next t → RunInvariant t

/-- 10_state.md R44: every state reached from RESET, whatever parameters in range, whatever operations the environment
schedules and whatever levels it supplies, meets the ten clauses; and no fault is recorded in it. -/
def Obligations.EveryReachedStateMeetsTheTenClauses : Prop :=
  ∀ (p : Params) (words : List Word) (levels : List Bool) (k : Nat) (t : State), p.wf = true →
    Host.Core.run Sys2Proof.core k { State.reset with params := p, schedule := words, levels := levels } = .next t →
    ReachedInvariant t ∧ t.fault = none

/-- 30_encoding.md section 3 (the pseudo-operation PASS): from the start of a pass, awake, the ten operations of a
displayed pass are all performed and come back to phase 0 with the invariant kept; so they are asleep with an active alarm,
where ALARM_SERVICE wakes the display, and the display is still awake after the pass; asleep with no active alarm, the two
operations of the short pass end in the idle wait. -/
def Obligations.APassComesBackToItsStart : Prop :=
  ∀ (s : State) (s0 s1 s2 s3 w : Bool), RunInvariant s → s.phase = 0 → s.idle = false →
    (s.asleep = false ∨ alarmActive s = true →
      ∃ t : State, Host.Core.run Sys2Proof.core 10 (s.withTrace (passLines true s0 s1 s2 s3 w)) = .next t
        ∧ t.phase = 0 ∧ t.schedule = [] ∧ t.levels = [] ∧ t.idle = false ∧ RunInvariant t
        ∧ (alarmActive s = true → t.asleep = false))
    ∧ (s.asleep = true → alarmActive s = false →
      ∃ t : State, Host.Core.run Sys2Proof.core 2 (s.withTrace (passLines false s0 s1 s2 s3 w)) = .next t
        ∧ t.phase = 0 ∧ t.schedule = [] ∧ t.idle = true ∧ t.asleep = true)

/-- 30_encoding.md section 3: the words of a sweep, of a displayed and of a short pass, and of ticks. -/
def Obligations.PseudoOperationsExpandAsListed : Prop :=
  ∀ s0 s1 s2 s3 w : Bool,
    wordsOf (sweepLines s0 s1 s2 s3 w) = [0x30, 0x31, 0x32, 0x33, 0x40]
      ∧ levelsOf (sweepLines s0 s1 s2 s3 w) = [s0, s1, s2, s3, w]
      ∧ wordsOf (passLines true s0 s1 s2 s3 w) = [0x80, 0x90, 0x30, 0x31, 0x32, 0x33, 0x40, 0x50, 0x60, 0x70]
      ∧ levelsOf (passLines true s0 s1 s2 s3 w) = [s0, s1, s2, s3, w]
      ∧ wordsOf (passLines false s0 s1 s2 s3 w) = [0x80, 0x90]
      ∧ ∀ n : Nat, wordsOf (ticksLines n) = List.replicate n 0x10

/-! ### The state image -/

/-- 20_memory.md section 1 (the state image): reading back the image of a state gives that state, where the phase is one
that is held and the reader supplies the operation of the fault record, which no image holds (log 13). -/
def Obligations.StateImageReadsBack : Prop :=
  ∀ (s base : State) (op : Raiser), s.phase.toNat ≤ 9 → (∀ r, s.fault = some r → r.op = op) →
    ofImage op base (image s) = some { s with
      params := base.params, trace := base.trace, schedule := base.schedule, isolated := base.isolated,
      levels := base.levels, draws := base.draws }

/-- 20_memory.md section 1 (the state image): an image of 16 bytes describes no state exactly when a button field holds
a reserved code, its phase is 10 to 15, or its FAULT byte is 3 or more. -/
def Obligations.ImagesOfNoStateAreRefused : Prop :=
  ∀ (op : Raiser) (base : State) (c0 c1 a0 a1 fl cd t0 t1 sc b0 b1 b2 sq out fb z : Word),
    let reserved : BitVec 3 → Prop := fun v => v = 0b101 ∨ v = 0b110
    ofImage op base [c0, c1, a0, a1, fl, cd, t0, t1, sc, b0, b1, b2, sq, out, fb, z] = none ↔
      reserved (b0.extractLsb' 0 3) ∨ reserved (b0.extractLsb' 3 3) ∨ reserved (b1.extractLsb' 0 3)
        ∨ reserved (b1.extractLsb' 3 3) ∨ reserved (b2.extractLsb' 0 3)
        ∨ 10 ≤ (sq.extractLsb' 0 4).toNat ∨ 3 ≤ fb.toNat

/-! ### Numbering -/

/-- 30_encoding.md R68, 00_scope.md R9 and R15, 10_state.md R29: position i is element i of a digit set, minuteUnits first;
its select line is bit i alone; its button code is SLOTi; its button's function is entry i of the map, by default MODE,
SLOW, FAST, NOFUNC; the alarm is shown and set in Setting, the clock otherwise. -/
def Obligations.PositionsNumberElementsLinesAndButtons : Prop :=
  (∀ D : DigitSet, D.get 0 = D.minuteUnits ∧ D.get 1 = D.minuteTens ∧ D.get 2 = D.hourUnits ∧ D.get 3 = D.hourTens)
    ∧ onehot 0 = 0b0001 ∧ onehot 1 = 0b0010 ∧ onehot 2 = 0b0100 ∧ onehot 3 = 0b1000
    ∧ slotCode 0 = .slot0 ∧ slotCode 1 = .slot1 ∧ slotCode 2 = .slot2 ∧ slotCode 3 = .slot3
    ∧ (∀ i : Position, slotOf (slotCode i) = i)
    ∧ (∀ m : ButtonMap, buttonFunction m 0 = m.slot0 ∧ buttonFunction m 1 = m.slot1 ∧ buttonFunction m 2 = m.slot2
        ∧ buttonFunction m 3 = m.slot3)
    ∧ State.reset.params.buttonMap = { slot0 := .mode, slot1 := .slow, slot2 := .fast, slot3 := .nofunc }
    ∧ (∀ s : State, s.settingAlarm = true → shown s = s.alarm ∧ target s = .alarm)
    ∧ (∀ s : State, s.settingAlarm = false → shown s = s.clock ∧ target s = .clock)
    ∧ (∀ s : State, digitsOf s .clock = s.clock ∧ digitsOf s .alarm = s.alarm)
end

