-- ==== Sys2Proof/Laws/State.lean ====
section
/-! SUPPORT. One lemma per field per named update of the state, each true by unfolding: later proofs rewrite with these
instead of unfolding a record update. -/

namespace Sys2Proof.Machine

/-! ### recordFault -/

@[simp] theorem recordFault_clock (d : Target) (op : Raiser) (s : State) : (recordFault d op s).clock = s.clock := rfl
@[simp] theorem recordFault_alarm (d : Target) (op : Raiser) (s : State) : (recordFault d op s).alarm = s.alarm := rfl
@[simp] theorem recordFault_sounding (d : Target) (op : Raiser) (s : State) : (recordFault d op s).sounding = s.sounding := rfl
@[simp] theorem recordFault_silenced (d : Target) (op : Raiser) (s : State) : (recordFault d op s).silenced = s.silenced := rfl
@[simp] theorem recordFault_blinkPhase (d : Target) (op : Raiser) (s : State) : (recordFault d op s).blinkPhase = s.blinkPhase := rfl
@[simp] theorem recordFault_countdown (d : Target) (op : Raiser) (s : State) : (recordFault d op s).countdown = s.countdown := rfl
@[simp] theorem recordFault_asleep (d : Target) (op : Raiser) (s : State) : (recordFault d op s).asleep = s.asleep := rfl
@[simp] theorem recordFault_settingAlarm (d : Target) (op : Raiser) (s : State) : (recordFault d op s).settingAlarm = s.settingAlarm := rfl
@[simp] theorem recordFault_wakeIE (d : Target) (op : Raiser) (s : State) : (recordFault d op s).wakeIE = s.wakeIE := rfl
@[simp] theorem recordFault_wakeFlag (d : Target) (op : Raiser) (s : State) : (recordFault d op s).wakeFlag = s.wakeFlag := rfl
@[simp] theorem recordFault_tickAcc (d : Target) (op : Raiser) (s : State) : (recordFault d op s).tickAcc = s.tickAcc := rfl
@[simp] theorem recordFault_slowCnt (d : Target) (op : Raiser) (s : State) : (recordFault d op s).slowCnt = s.slowCnt := rfl
@[simp] theorem recordFault_raw (d : Target) (op : Raiser) (s : State) : (recordFault d op s).raw = s.raw := rfl
@[simp] theorem recordFault_sweepSig (d : Target) (op : Raiser) (s : State) : (recordFault d op s).sweepSig = s.sweepSig := rfl
@[simp] theorem recordFault_prev (d : Target) (op : Raiser) (s : State) : (recordFault d op s).prev = s.prev := rfl
@[simp] theorem recordFault_stable (d : Target) (op : Raiser) (s : State) : (recordFault d op s).stable = s.stable := rfl
@[simp] theorem recordFault_edge (d : Target) (op : Raiser) (s : State) : (recordFault d op s).edge = s.edge := rfl
@[simp] theorem recordFault_lastStable (d : Target) (op : Raiser) (s : State) : (recordFault d op s).lastStable = s.lastStable := rfl
@[simp] theorem recordFault_phase (d : Target) (op : Raiser) (s : State) : (recordFault d op s).phase = s.phase := rfl
@[simp] theorem recordFault_idle (d : Target) (op : Raiser) (s : State) : (recordFault d op s).idle = s.idle := rfl
@[simp] theorem recordFault_fault (d : Target) (op : Raiser) (s : State) : (recordFault d op s).fault = some { which := d, op := op } := rfl
@[simp] theorem recordFault_ds (d : Target) (op : Raiser) (s : State) : (recordFault d op s).ds = s.ds := rfl
@[simp] theorem recordFault_segsel (d : Target) (op : Raiser) (s : State) : (recordFault d op s).segsel = s.segsel := rfl
@[simp] theorem recordFault_params (d : Target) (op : Raiser) (s : State) : (recordFault d op s).params = s.params := rfl
@[simp] theorem recordFault_trace (d : Target) (op : Raiser) (s : State) : (recordFault d op s).trace = s.trace := rfl
@[simp] theorem recordFault_schedule (d : Target) (op : Raiser) (s : State) : (recordFault d op s).schedule = s.schedule := rfl
@[simp] theorem recordFault_isolated (d : Target) (op : Raiser) (s : State) : (recordFault d op s).isolated = s.isolated := rfl
@[simp] theorem recordFault_levels (d : Target) (op : Raiser) (s : State) : (recordFault d op s).levels = s.levels := rfl
@[simp] theorem recordFault_draws (d : Target) (op : Raiser) (s : State) : (recordFault d op s).draws = s.draws := rfl

/-! ### setPhase -/

@[simp] theorem setPhase_clock (p : BitVec 4) (s : State) : (setPhase p s).clock = s.clock := rfl
@[simp] theorem setPhase_alarm (p : BitVec 4) (s : State) : (setPhase p s).alarm = s.alarm := rfl
@[simp] theorem setPhase_sounding (p : BitVec 4) (s : State) : (setPhase p s).sounding = s.sounding := rfl
@[simp] theorem setPhase_silenced (p : BitVec 4) (s : State) : (setPhase p s).silenced = s.silenced := rfl
@[simp] theorem setPhase_blinkPhase (p : BitVec 4) (s : State) : (setPhase p s).blinkPhase = s.blinkPhase := rfl
@[simp] theorem setPhase_countdown (p : BitVec 4) (s : State) : (setPhase p s).countdown = s.countdown := rfl
@[simp] theorem setPhase_asleep (p : BitVec 4) (s : State) : (setPhase p s).asleep = s.asleep := rfl
@[simp] theorem setPhase_settingAlarm (p : BitVec 4) (s : State) : (setPhase p s).settingAlarm = s.settingAlarm := rfl
@[simp] theorem setPhase_wakeIE (p : BitVec 4) (s : State) : (setPhase p s).wakeIE = s.wakeIE := rfl
@[simp] theorem setPhase_wakeFlag (p : BitVec 4) (s : State) : (setPhase p s).wakeFlag = s.wakeFlag := rfl
@[simp] theorem setPhase_tickAcc (p : BitVec 4) (s : State) : (setPhase p s).tickAcc = s.tickAcc := rfl
@[simp] theorem setPhase_slowCnt (p : BitVec 4) (s : State) : (setPhase p s).slowCnt = s.slowCnt := rfl
@[simp] theorem setPhase_raw (p : BitVec 4) (s : State) : (setPhase p s).raw = s.raw := rfl
@[simp] theorem setPhase_sweepSig (p : BitVec 4) (s : State) : (setPhase p s).sweepSig = s.sweepSig := rfl
@[simp] theorem setPhase_prev (p : BitVec 4) (s : State) : (setPhase p s).prev = s.prev := rfl
@[simp] theorem setPhase_stable (p : BitVec 4) (s : State) : (setPhase p s).stable = s.stable := rfl
@[simp] theorem setPhase_edge (p : BitVec 4) (s : State) : (setPhase p s).edge = s.edge := rfl
@[simp] theorem setPhase_lastStable (p : BitVec 4) (s : State) : (setPhase p s).lastStable = s.lastStable := rfl
@[simp] theorem setPhase_phase (p : BitVec 4) (s : State) : (setPhase p s).phase = p := rfl
@[simp] theorem setPhase_idle (p : BitVec 4) (s : State) : (setPhase p s).idle = s.idle := rfl
@[simp] theorem setPhase_fault (p : BitVec 4) (s : State) : (setPhase p s).fault = s.fault := rfl
@[simp] theorem setPhase_ds (p : BitVec 4) (s : State) : (setPhase p s).ds = s.ds := rfl
@[simp] theorem setPhase_segsel (p : BitVec 4) (s : State) : (setPhase p s).segsel = s.segsel := rfl
@[simp] theorem setPhase_params (p : BitVec 4) (s : State) : (setPhase p s).params = s.params := rfl
@[simp] theorem setPhase_trace (p : BitVec 4) (s : State) : (setPhase p s).trace = s.trace := rfl
@[simp] theorem setPhase_schedule (p : BitVec 4) (s : State) : (setPhase p s).schedule = s.schedule := rfl
@[simp] theorem setPhase_isolated (p : BitVec 4) (s : State) : (setPhase p s).isolated = s.isolated := rfl
@[simp] theorem setPhase_levels (p : BitVec 4) (s : State) : (setPhase p s).levels = s.levels := rfl
@[simp] theorem setPhase_draws (p : BitVec 4) (s : State) : (setPhase p s).draws = s.draws := rfl

/-! ### reloadCountdown -/

@[simp] theorem reloadCountdown_clock (s : State) : (reloadCountdown s).clock = s.clock := rfl
@[simp] theorem reloadCountdown_alarm (s : State) : (reloadCountdown s).alarm = s.alarm := rfl
@[simp] theorem reloadCountdown_sounding (s : State) : (reloadCountdown s).sounding = s.sounding := rfl
@[simp] theorem reloadCountdown_silenced (s : State) : (reloadCountdown s).silenced = s.silenced := rfl
@[simp] theorem reloadCountdown_blinkPhase (s : State) : (reloadCountdown s).blinkPhase = s.blinkPhase := rfl
@[simp] theorem reloadCountdown_countdown (s : State) : (reloadCountdown s).countdown = s.params.autoOffTicks := rfl
@[simp] theorem reloadCountdown_asleep (s : State) : (reloadCountdown s).asleep = s.asleep := rfl
@[simp] theorem reloadCountdown_settingAlarm (s : State) : (reloadCountdown s).settingAlarm = s.settingAlarm := rfl
@[simp] theorem reloadCountdown_wakeIE (s : State) : (reloadCountdown s).wakeIE = s.wakeIE := rfl
@[simp] theorem reloadCountdown_wakeFlag (s : State) : (reloadCountdown s).wakeFlag = s.wakeFlag := rfl
@[simp] theorem reloadCountdown_tickAcc (s : State) : (reloadCountdown s).tickAcc = s.tickAcc := rfl
@[simp] theorem reloadCountdown_slowCnt (s : State) : (reloadCountdown s).slowCnt = s.slowCnt := rfl
@[simp] theorem reloadCountdown_raw (s : State) : (reloadCountdown s).raw = s.raw := rfl
@[simp] theorem reloadCountdown_sweepSig (s : State) : (reloadCountdown s).sweepSig = s.sweepSig := rfl
@[simp] theorem reloadCountdown_prev (s : State) : (reloadCountdown s).prev = s.prev := rfl
@[simp] theorem reloadCountdown_stable (s : State) : (reloadCountdown s).stable = s.stable := rfl
@[simp] theorem reloadCountdown_edge (s : State) : (reloadCountdown s).edge = s.edge := rfl
@[simp] theorem reloadCountdown_lastStable (s : State) : (reloadCountdown s).lastStable = s.lastStable := rfl
@[simp] theorem reloadCountdown_phase (s : State) : (reloadCountdown s).phase = s.phase := rfl
@[simp] theorem reloadCountdown_idle (s : State) : (reloadCountdown s).idle = s.idle := rfl
@[simp] theorem reloadCountdown_fault (s : State) : (reloadCountdown s).fault = s.fault := rfl
@[simp] theorem reloadCountdown_ds (s : State) : (reloadCountdown s).ds = s.ds := rfl
@[simp] theorem reloadCountdown_segsel (s : State) : (reloadCountdown s).segsel = s.segsel := rfl
@[simp] theorem reloadCountdown_params (s : State) : (reloadCountdown s).params = s.params := rfl
@[simp] theorem reloadCountdown_trace (s : State) : (reloadCountdown s).trace = s.trace := rfl
@[simp] theorem reloadCountdown_schedule (s : State) : (reloadCountdown s).schedule = s.schedule := rfl
@[simp] theorem reloadCountdown_isolated (s : State) : (reloadCountdown s).isolated = s.isolated := rfl
@[simp] theorem reloadCountdown_levels (s : State) : (reloadCountdown s).levels = s.levels := rfl
@[simp] theorem reloadCountdown_draws (s : State) : (reloadCountdown s).draws = s.draws := rfl

/-! ### silence -/

@[simp] theorem silence_clock (s : State) : (silence s).clock = s.clock := rfl
@[simp] theorem silence_alarm (s : State) : (silence s).alarm = s.alarm := rfl
@[simp] theorem silence_sounding (s : State) : (silence s).sounding = s.sounding := rfl
@[simp] theorem silence_silenced (s : State) : (silence s).silenced = true := rfl
@[simp] theorem silence_blinkPhase (s : State) : (silence s).blinkPhase = s.blinkPhase := rfl
@[simp] theorem silence_countdown (s : State) : (silence s).countdown = s.countdown := rfl
@[simp] theorem silence_asleep (s : State) : (silence s).asleep = s.asleep := rfl
@[simp] theorem silence_settingAlarm (s : State) : (silence s).settingAlarm = s.settingAlarm := rfl
@[simp] theorem silence_wakeIE (s : State) : (silence s).wakeIE = s.wakeIE := rfl
@[simp] theorem silence_wakeFlag (s : State) : (silence s).wakeFlag = s.wakeFlag := rfl
@[simp] theorem silence_tickAcc (s : State) : (silence s).tickAcc = s.tickAcc := rfl
@[simp] theorem silence_slowCnt (s : State) : (silence s).slowCnt = s.slowCnt := rfl
@[simp] theorem silence_raw (s : State) : (silence s).raw = s.raw := rfl
@[simp] theorem silence_sweepSig (s : State) : (silence s).sweepSig = s.sweepSig := rfl
@[simp] theorem silence_prev (s : State) : (silence s).prev = s.prev := rfl
@[simp] theorem silence_stable (s : State) : (silence s).stable = s.stable := rfl
@[simp] theorem silence_edge (s : State) : (silence s).edge = s.edge := rfl
@[simp] theorem silence_lastStable (s : State) : (silence s).lastStable = s.lastStable := rfl
@[simp] theorem silence_phase (s : State) : (silence s).phase = s.phase := rfl
@[simp] theorem silence_idle (s : State) : (silence s).idle = s.idle := rfl
@[simp] theorem silence_fault (s : State) : (silence s).fault = s.fault := rfl
@[simp] theorem silence_ds (s : State) : (silence s).ds = s.ds := rfl
@[simp] theorem silence_segsel (s : State) : (silence s).segsel = s.segsel := rfl
@[simp] theorem silence_params (s : State) : (silence s).params = s.params := rfl
@[simp] theorem silence_trace (s : State) : (silence s).trace = s.trace := rfl
@[simp] theorem silence_schedule (s : State) : (silence s).schedule = s.schedule := rfl
@[simp] theorem silence_isolated (s : State) : (silence s).isolated = s.isolated := rfl
@[simp] theorem silence_levels (s : State) : (silence s).levels = s.levels := rfl
@[simp] theorem silence_draws (s : State) : (silence s).draws = s.draws := rfl

/-! ### advanceClock -/

@[simp] theorem advanceClock_clock (s : State) : (advanceClock s).clock = bcdIncr s.clock := rfl
@[simp] theorem advanceClock_alarm (s : State) : (advanceClock s).alarm = s.alarm := rfl
@[simp] theorem advanceClock_sounding (s : State) : (advanceClock s).sounding = s.sounding := rfl
@[simp] theorem advanceClock_silenced (s : State) : (advanceClock s).silenced = s.silenced := rfl
@[simp] theorem advanceClock_blinkPhase (s : State) : (advanceClock s).blinkPhase = s.blinkPhase := rfl
@[simp] theorem advanceClock_countdown (s : State) : (advanceClock s).countdown = s.countdown := rfl
@[simp] theorem advanceClock_asleep (s : State) : (advanceClock s).asleep = s.asleep := rfl
@[simp] theorem advanceClock_settingAlarm (s : State) : (advanceClock s).settingAlarm = s.settingAlarm := rfl
@[simp] theorem advanceClock_wakeIE (s : State) : (advanceClock s).wakeIE = s.wakeIE := rfl
@[simp] theorem advanceClock_wakeFlag (s : State) : (advanceClock s).wakeFlag = s.wakeFlag := rfl
@[simp] theorem advanceClock_tickAcc (s : State) : (advanceClock s).tickAcc = s.tickAcc := rfl
@[simp] theorem advanceClock_slowCnt (s : State) : (advanceClock s).slowCnt = s.slowCnt := rfl
@[simp] theorem advanceClock_raw (s : State) : (advanceClock s).raw = s.raw := rfl
@[simp] theorem advanceClock_sweepSig (s : State) : (advanceClock s).sweepSig = s.sweepSig := rfl
@[simp] theorem advanceClock_prev (s : State) : (advanceClock s).prev = s.prev := rfl
@[simp] theorem advanceClock_stable (s : State) : (advanceClock s).stable = s.stable := rfl
@[simp] theorem advanceClock_edge (s : State) : (advanceClock s).edge = s.edge := rfl
@[simp] theorem advanceClock_lastStable (s : State) : (advanceClock s).lastStable = s.lastStable := rfl
@[simp] theorem advanceClock_phase (s : State) : (advanceClock s).phase = s.phase := rfl
@[simp] theorem advanceClock_idle (s : State) : (advanceClock s).idle = s.idle := rfl
@[simp] theorem advanceClock_fault (s : State) : (advanceClock s).fault = s.fault := rfl
@[simp] theorem advanceClock_ds (s : State) : (advanceClock s).ds = s.ds := rfl
@[simp] theorem advanceClock_segsel (s : State) : (advanceClock s).segsel = s.segsel := rfl
@[simp] theorem advanceClock_params (s : State) : (advanceClock s).params = s.params := rfl
@[simp] theorem advanceClock_trace (s : State) : (advanceClock s).trace = s.trace := rfl
@[simp] theorem advanceClock_schedule (s : State) : (advanceClock s).schedule = s.schedule := rfl
@[simp] theorem advanceClock_isolated (s : State) : (advanceClock s).isolated = s.isolated := rfl
@[simp] theorem advanceClock_levels (s : State) : (advanceClock s).levels = s.levels := rfl
@[simp] theorem advanceClock_draws (s : State) : (advanceClock s).draws = s.draws := rfl

/-! ### countSet -/

@[simp] theorem countSet_clock (f : Rate) (s : State) : (countSet f s).clock = s.clock := rfl
@[simp] theorem countSet_alarm (f : Rate) (s : State) : (countSet f s).alarm = s.alarm := rfl
@[simp] theorem countSet_sounding (f : Rate) (s : State) : (countSet f s).sounding = s.sounding := rfl
@[simp] theorem countSet_silenced (f : Rate) (s : State) : (countSet f s).silenced = s.silenced := rfl
@[simp] theorem countSet_blinkPhase (f : Rate) (s : State) : (countSet f s).blinkPhase = s.blinkPhase := rfl
@[simp] theorem countSet_countdown (f : Rate) (s : State) : (countSet f s).countdown = s.countdown := rfl
@[simp] theorem countSet_asleep (f : Rate) (s : State) : (countSet f s).asleep = s.asleep := rfl
@[simp] theorem countSet_settingAlarm (f : Rate) (s : State) : (countSet f s).settingAlarm = s.settingAlarm := rfl
@[simp] theorem countSet_wakeIE (f : Rate) (s : State) : (countSet f s).wakeIE = s.wakeIE := rfl
@[simp] theorem countSet_wakeFlag (f : Rate) (s : State) : (countSet f s).wakeFlag = s.wakeFlag := rfl
@[simp] theorem countSet_tickAcc (f : Rate) (s : State) : (countSet f s).tickAcc = s.tickAcc := rfl
@[simp] theorem countSet_slowCnt (f : Rate) (s : State) : (countSet f s).slowCnt = slowCntAfterSet f s := rfl
@[simp] theorem countSet_raw (f : Rate) (s : State) : (countSet f s).raw = s.raw := rfl
@[simp] theorem countSet_sweepSig (f : Rate) (s : State) : (countSet f s).sweepSig = s.sweepSig := rfl
@[simp] theorem countSet_prev (f : Rate) (s : State) : (countSet f s).prev = s.prev := rfl
@[simp] theorem countSet_stable (f : Rate) (s : State) : (countSet f s).stable = s.stable := rfl
@[simp] theorem countSet_edge (f : Rate) (s : State) : (countSet f s).edge = s.edge := rfl
@[simp] theorem countSet_lastStable (f : Rate) (s : State) : (countSet f s).lastStable = s.lastStable := rfl
@[simp] theorem countSet_phase (f : Rate) (s : State) : (countSet f s).phase = s.phase := rfl
@[simp] theorem countSet_idle (f : Rate) (s : State) : (countSet f s).idle = s.idle := rfl
@[simp] theorem countSet_fault (f : Rate) (s : State) : (countSet f s).fault = s.fault := rfl
@[simp] theorem countSet_ds (f : Rate) (s : State) : (countSet f s).ds = s.ds := rfl
@[simp] theorem countSet_segsel (f : Rate) (s : State) : (countSet f s).segsel = s.segsel := rfl
@[simp] theorem countSet_params (f : Rate) (s : State) : (countSet f s).params = s.params := rfl
@[simp] theorem countSet_trace (f : Rate) (s : State) : (countSet f s).trace = s.trace := rfl
@[simp] theorem countSet_schedule (f : Rate) (s : State) : (countSet f s).schedule = s.schedule := rfl
@[simp] theorem countSet_isolated (f : Rate) (s : State) : (countSet f s).isolated = s.isolated := rfl
@[simp] theorem countSet_levels (f : Rate) (s : State) : (countSet f s).levels = s.levels := rfl
@[simp] theorem countSet_draws (f : Rate) (s : State) : (countSet f s).draws = s.draws := rfl

/-! ### compareAlarm -/

@[simp] theorem compareAlarm_clock (s : State) : (compareAlarm s).clock = s.clock := rfl
@[simp] theorem compareAlarm_alarm (s : State) : (compareAlarm s).alarm = s.alarm := rfl
@[simp] theorem compareAlarm_sounding (s : State) : (compareAlarm s).sounding = decide (s.clock = s.alarm) := rfl
@[simp] theorem compareAlarm_silenced (s : State) : (compareAlarm s).silenced = (s.silenced && decide (s.clock = s.alarm)) := rfl
@[simp] theorem compareAlarm_blinkPhase (s : State) : (compareAlarm s).blinkPhase = s.blinkPhase := rfl
@[simp] theorem compareAlarm_countdown (s : State) : (compareAlarm s).countdown = s.countdown := rfl
@[simp] theorem compareAlarm_asleep (s : State) : (compareAlarm s).asleep = s.asleep := rfl
@[simp] theorem compareAlarm_settingAlarm (s : State) : (compareAlarm s).settingAlarm = s.settingAlarm := rfl
@[simp] theorem compareAlarm_wakeIE (s : State) : (compareAlarm s).wakeIE = s.wakeIE := rfl
@[simp] theorem compareAlarm_wakeFlag (s : State) : (compareAlarm s).wakeFlag = s.wakeFlag := rfl
@[simp] theorem compareAlarm_tickAcc (s : State) : (compareAlarm s).tickAcc = s.tickAcc := rfl
@[simp] theorem compareAlarm_slowCnt (s : State) : (compareAlarm s).slowCnt = s.slowCnt := rfl
@[simp] theorem compareAlarm_raw (s : State) : (compareAlarm s).raw = s.raw := rfl
@[simp] theorem compareAlarm_sweepSig (s : State) : (compareAlarm s).sweepSig = s.sweepSig := rfl
@[simp] theorem compareAlarm_prev (s : State) : (compareAlarm s).prev = s.prev := rfl
@[simp] theorem compareAlarm_stable (s : State) : (compareAlarm s).stable = s.stable := rfl
@[simp] theorem compareAlarm_edge (s : State) : (compareAlarm s).edge = s.edge := rfl
@[simp] theorem compareAlarm_lastStable (s : State) : (compareAlarm s).lastStable = s.lastStable := rfl
@[simp] theorem compareAlarm_phase (s : State) : (compareAlarm s).phase = s.phase := rfl
@[simp] theorem compareAlarm_idle (s : State) : (compareAlarm s).idle = s.idle := rfl
@[simp] theorem compareAlarm_fault (s : State) : (compareAlarm s).fault = s.fault := rfl
@[simp] theorem compareAlarm_ds (s : State) : (compareAlarm s).ds = s.ds := rfl
@[simp] theorem compareAlarm_segsel (s : State) : (compareAlarm s).segsel = s.segsel := rfl
@[simp] theorem compareAlarm_params (s : State) : (compareAlarm s).params = s.params := rfl
@[simp] theorem compareAlarm_trace (s : State) : (compareAlarm s).trace = s.trace := rfl
@[simp] theorem compareAlarm_schedule (s : State) : (compareAlarm s).schedule = s.schedule := rfl
@[simp] theorem compareAlarm_isolated (s : State) : (compareAlarm s).isolated = s.isolated := rfl
@[simp] theorem compareAlarm_levels (s : State) : (compareAlarm s).levels = s.levels := rfl
@[simp] theorem compareAlarm_draws (s : State) : (compareAlarm s).draws = s.draws := rfl

/-! ### setTickAcc -/

@[simp] theorem setTickAcc_clock (v : BitVec 16) (s : State) : (setTickAcc v s).clock = s.clock := rfl
@[simp] theorem setTickAcc_alarm (v : BitVec 16) (s : State) : (setTickAcc v s).alarm = s.alarm := rfl
@[simp] theorem setTickAcc_sounding (v : BitVec 16) (s : State) : (setTickAcc v s).sounding = s.sounding := rfl
@[simp] theorem setTickAcc_silenced (v : BitVec 16) (s : State) : (setTickAcc v s).silenced = s.silenced := rfl
@[simp] theorem setTickAcc_blinkPhase (v : BitVec 16) (s : State) : (setTickAcc v s).blinkPhase = s.blinkPhase := rfl
@[simp] theorem setTickAcc_countdown (v : BitVec 16) (s : State) : (setTickAcc v s).countdown = s.countdown := rfl
@[simp] theorem setTickAcc_asleep (v : BitVec 16) (s : State) : (setTickAcc v s).asleep = s.asleep := rfl
@[simp] theorem setTickAcc_settingAlarm (v : BitVec 16) (s : State) : (setTickAcc v s).settingAlarm = s.settingAlarm := rfl
@[simp] theorem setTickAcc_wakeIE (v : BitVec 16) (s : State) : (setTickAcc v s).wakeIE = s.wakeIE := rfl
@[simp] theorem setTickAcc_wakeFlag (v : BitVec 16) (s : State) : (setTickAcc v s).wakeFlag = s.wakeFlag := rfl
@[simp] theorem setTickAcc_tickAcc (v : BitVec 16) (s : State) : (setTickAcc v s).tickAcc = v := rfl
@[simp] theorem setTickAcc_slowCnt (v : BitVec 16) (s : State) : (setTickAcc v s).slowCnt = s.slowCnt := rfl
@[simp] theorem setTickAcc_raw (v : BitVec 16) (s : State) : (setTickAcc v s).raw = s.raw := rfl
@[simp] theorem setTickAcc_sweepSig (v : BitVec 16) (s : State) : (setTickAcc v s).sweepSig = s.sweepSig := rfl
@[simp] theorem setTickAcc_prev (v : BitVec 16) (s : State) : (setTickAcc v s).prev = s.prev := rfl
@[simp] theorem setTickAcc_stable (v : BitVec 16) (s : State) : (setTickAcc v s).stable = s.stable := rfl
@[simp] theorem setTickAcc_edge (v : BitVec 16) (s : State) : (setTickAcc v s).edge = s.edge := rfl
@[simp] theorem setTickAcc_lastStable (v : BitVec 16) (s : State) : (setTickAcc v s).lastStable = s.lastStable := rfl
@[simp] theorem setTickAcc_phase (v : BitVec 16) (s : State) : (setTickAcc v s).phase = s.phase := rfl
@[simp] theorem setTickAcc_idle (v : BitVec 16) (s : State) : (setTickAcc v s).idle = s.idle := rfl
@[simp] theorem setTickAcc_fault (v : BitVec 16) (s : State) : (setTickAcc v s).fault = s.fault := rfl
@[simp] theorem setTickAcc_ds (v : BitVec 16) (s : State) : (setTickAcc v s).ds = s.ds := rfl
@[simp] theorem setTickAcc_segsel (v : BitVec 16) (s : State) : (setTickAcc v s).segsel = s.segsel := rfl
@[simp] theorem setTickAcc_params (v : BitVec 16) (s : State) : (setTickAcc v s).params = s.params := rfl
@[simp] theorem setTickAcc_trace (v : BitVec 16) (s : State) : (setTickAcc v s).trace = s.trace := rfl
@[simp] theorem setTickAcc_schedule (v : BitVec 16) (s : State) : (setTickAcc v s).schedule = s.schedule := rfl
@[simp] theorem setTickAcc_isolated (v : BitVec 16) (s : State) : (setTickAcc v s).isolated = s.isolated := rfl
@[simp] theorem setTickAcc_levels (v : BitVec 16) (s : State) : (setTickAcc v s).levels = s.levels := rfl
@[simp] theorem setTickAcc_draws (v : BitVec 16) (s : State) : (setTickAcc v s).draws = s.draws := rfl

/-! ### tickBlink -/

@[simp] theorem tickBlink_clock (s : State) : (tickBlink s).clock = s.clock := rfl
@[simp] theorem tickBlink_alarm (s : State) : (tickBlink s).alarm = s.alarm := rfl
@[simp] theorem tickBlink_sounding (s : State) : (tickBlink s).sounding = s.sounding := rfl
@[simp] theorem tickBlink_silenced (s : State) : (tickBlink s).silenced = s.silenced := rfl
@[simp] theorem tickBlink_blinkPhase (s : State) : (tickBlink s).blinkPhase = nextBlink s.settingAlarm s.blinkPhase := rfl
@[simp] theorem tickBlink_countdown (s : State) : (tickBlink s).countdown = s.countdown := rfl
@[simp] theorem tickBlink_asleep (s : State) : (tickBlink s).asleep = s.asleep := rfl
@[simp] theorem tickBlink_settingAlarm (s : State) : (tickBlink s).settingAlarm = s.settingAlarm := rfl
@[simp] theorem tickBlink_wakeIE (s : State) : (tickBlink s).wakeIE = s.wakeIE := rfl
@[simp] theorem tickBlink_wakeFlag (s : State) : (tickBlink s).wakeFlag = s.wakeFlag := rfl
@[simp] theorem tickBlink_tickAcc (s : State) : (tickBlink s).tickAcc = s.tickAcc := rfl
@[simp] theorem tickBlink_slowCnt (s : State) : (tickBlink s).slowCnt = s.slowCnt := rfl
@[simp] theorem tickBlink_raw (s : State) : (tickBlink s).raw = s.raw := rfl
@[simp] theorem tickBlink_sweepSig (s : State) : (tickBlink s).sweepSig = s.sweepSig := rfl
@[simp] theorem tickBlink_prev (s : State) : (tickBlink s).prev = s.prev := rfl
@[simp] theorem tickBlink_stable (s : State) : (tickBlink s).stable = s.stable := rfl
@[simp] theorem tickBlink_edge (s : State) : (tickBlink s).edge = s.edge := rfl
@[simp] theorem tickBlink_lastStable (s : State) : (tickBlink s).lastStable = s.lastStable := rfl
@[simp] theorem tickBlink_phase (s : State) : (tickBlink s).phase = s.phase := rfl
@[simp] theorem tickBlink_idle (s : State) : (tickBlink s).idle = s.idle := rfl
@[simp] theorem tickBlink_fault (s : State) : (tickBlink s).fault = s.fault := rfl
@[simp] theorem tickBlink_ds (s : State) : (tickBlink s).ds = s.ds := rfl
@[simp] theorem tickBlink_segsel (s : State) : (tickBlink s).segsel = s.segsel := rfl
@[simp] theorem tickBlink_params (s : State) : (tickBlink s).params = s.params := rfl
@[simp] theorem tickBlink_trace (s : State) : (tickBlink s).trace = s.trace := rfl
@[simp] theorem tickBlink_schedule (s : State) : (tickBlink s).schedule = s.schedule := rfl
@[simp] theorem tickBlink_isolated (s : State) : (tickBlink s).isolated = s.isolated := rfl
@[simp] theorem tickBlink_levels (s : State) : (tickBlink s).levels = s.levels := rfl
@[simp] theorem tickBlink_draws (s : State) : (tickBlink s).draws = s.draws := rfl

/-! ### tickCountDown -/

@[simp] theorem tickCountDown_clock (s : State) : (tickCountDown s).clock = s.clock := rfl
@[simp] theorem tickCountDown_alarm (s : State) : (tickCountDown s).alarm = s.alarm := rfl
@[simp] theorem tickCountDown_sounding (s : State) : (tickCountDown s).sounding = s.sounding := rfl
@[simp] theorem tickCountDown_silenced (s : State) : (tickCountDown s).silenced = s.silenced := rfl
@[simp] theorem tickCountDown_blinkPhase (s : State) : (tickCountDown s).blinkPhase = s.blinkPhase := rfl
@[simp] theorem tickCountDown_countdown (s : State) : (tickCountDown s).countdown = countDown s.countdown := rfl
@[simp] theorem tickCountDown_asleep (s : State) : (tickCountDown s).asleep = s.asleep := rfl
@[simp] theorem tickCountDown_settingAlarm (s : State) : (tickCountDown s).settingAlarm = s.settingAlarm := rfl
@[simp] theorem tickCountDown_wakeIE (s : State) : (tickCountDown s).wakeIE = s.wakeIE := rfl
@[simp] theorem tickCountDown_wakeFlag (s : State) : (tickCountDown s).wakeFlag = s.wakeFlag := rfl
@[simp] theorem tickCountDown_tickAcc (s : State) : (tickCountDown s).tickAcc = s.tickAcc := rfl
@[simp] theorem tickCountDown_slowCnt (s : State) : (tickCountDown s).slowCnt = s.slowCnt := rfl
@[simp] theorem tickCountDown_raw (s : State) : (tickCountDown s).raw = s.raw := rfl
@[simp] theorem tickCountDown_sweepSig (s : State) : (tickCountDown s).sweepSig = s.sweepSig := rfl
@[simp] theorem tickCountDown_prev (s : State) : (tickCountDown s).prev = s.prev := rfl
@[simp] theorem tickCountDown_stable (s : State) : (tickCountDown s).stable = s.stable := rfl
@[simp] theorem tickCountDown_edge (s : State) : (tickCountDown s).edge = s.edge := rfl
@[simp] theorem tickCountDown_lastStable (s : State) : (tickCountDown s).lastStable = s.lastStable := rfl
@[simp] theorem tickCountDown_phase (s : State) : (tickCountDown s).phase = s.phase := rfl
@[simp] theorem tickCountDown_idle (s : State) : (tickCountDown s).idle = s.idle := rfl
@[simp] theorem tickCountDown_fault (s : State) : (tickCountDown s).fault = s.fault := rfl
@[simp] theorem tickCountDown_ds (s : State) : (tickCountDown s).ds = s.ds := rfl
@[simp] theorem tickCountDown_segsel (s : State) : (tickCountDown s).segsel = s.segsel := rfl
@[simp] theorem tickCountDown_params (s : State) : (tickCountDown s).params = s.params := rfl
@[simp] theorem tickCountDown_trace (s : State) : (tickCountDown s).trace = s.trace := rfl
@[simp] theorem tickCountDown_schedule (s : State) : (tickCountDown s).schedule = s.schedule := rfl
@[simp] theorem tickCountDown_isolated (s : State) : (tickCountDown s).isolated = s.isolated := rfl
@[simp] theorem tickCountDown_levels (s : State) : (tickCountDown s).levels = s.levels := rfl
@[simp] theorem tickCountDown_draws (s : State) : (tickCountDown s).draws = s.draws := rfl

/-! ### tickResume -/

@[simp] theorem tickResume_clock (s : State) : (tickResume s).clock = s.clock := rfl
@[simp] theorem tickResume_alarm (s : State) : (tickResume s).alarm = s.alarm := rfl
@[simp] theorem tickResume_sounding (s : State) : (tickResume s).sounding = s.sounding := rfl
@[simp] theorem tickResume_silenced (s : State) : (tickResume s).silenced = s.silenced := rfl
@[simp] theorem tickResume_blinkPhase (s : State) : (tickResume s).blinkPhase = s.blinkPhase := rfl
@[simp] theorem tickResume_countdown (s : State) : (tickResume s).countdown = s.countdown := rfl
@[simp] theorem tickResume_asleep (s : State) : (tickResume s).asleep = s.asleep := rfl
@[simp] theorem tickResume_settingAlarm (s : State) : (tickResume s).settingAlarm = s.settingAlarm := rfl
@[simp] theorem tickResume_wakeIE (s : State) : (tickResume s).wakeIE = s.wakeIE := rfl
@[simp] theorem tickResume_wakeFlag (s : State) : (tickResume s).wakeFlag = s.wakeFlag := rfl
@[simp] theorem tickResume_tickAcc (s : State) : (tickResume s).tickAcc = s.tickAcc := rfl
@[simp] theorem tickResume_slowCnt (s : State) : (tickResume s).slowCnt = s.slowCnt := rfl
@[simp] theorem tickResume_raw (s : State) : (tickResume s).raw = s.raw := rfl
@[simp] theorem tickResume_sweepSig (s : State) : (tickResume s).sweepSig = s.sweepSig := rfl
@[simp] theorem tickResume_prev (s : State) : (tickResume s).prev = s.prev := rfl
@[simp] theorem tickResume_stable (s : State) : (tickResume s).stable = s.stable := rfl
@[simp] theorem tickResume_edge (s : State) : (tickResume s).edge = s.edge := rfl
@[simp] theorem tickResume_lastStable (s : State) : (tickResume s).lastStable = s.lastStable := rfl
@[simp] theorem tickResume_phase (s : State) : (tickResume s).phase = s.phase := rfl
@[simp] theorem tickResume_idle (s : State) : (tickResume s).idle = false := rfl
@[simp] theorem tickResume_fault (s : State) : (tickResume s).fault = s.fault := rfl
@[simp] theorem tickResume_ds (s : State) : (tickResume s).ds = s.ds := rfl
@[simp] theorem tickResume_segsel (s : State) : (tickResume s).segsel = s.segsel := rfl
@[simp] theorem tickResume_params (s : State) : (tickResume s).params = s.params := rfl
@[simp] theorem tickResume_trace (s : State) : (tickResume s).trace = s.trace := rfl
@[simp] theorem tickResume_schedule (s : State) : (tickResume s).schedule = s.schedule := rfl
@[simp] theorem tickResume_isolated (s : State) : (tickResume s).isolated = s.isolated := rfl
@[simp] theorem tickResume_levels (s : State) : (tickResume s).levels = s.levels := rfl
@[simp] theorem tickResume_draws (s : State) : (tickResume s).draws = s.draws := rfl

/-! ### showAlarm -/

@[simp] theorem showAlarm_clock (s : State) : (showAlarm s).clock = s.clock := rfl
@[simp] theorem showAlarm_alarm (s : State) : (showAlarm s).alarm = s.alarm := rfl
@[simp] theorem showAlarm_sounding (s : State) : (showAlarm s).sounding = s.sounding := rfl
@[simp] theorem showAlarm_silenced (s : State) : (showAlarm s).silenced = s.silenced := rfl
@[simp] theorem showAlarm_blinkPhase (s : State) : (showAlarm s).blinkPhase = true := rfl
@[simp] theorem showAlarm_countdown (s : State) : (showAlarm s).countdown = s.countdown := rfl
@[simp] theorem showAlarm_asleep (s : State) : (showAlarm s).asleep = false := rfl
@[simp] theorem showAlarm_settingAlarm (s : State) : (showAlarm s).settingAlarm = false := rfl
@[simp] theorem showAlarm_wakeIE (s : State) : (showAlarm s).wakeIE = s.wakeIE := rfl
@[simp] theorem showAlarm_wakeFlag (s : State) : (showAlarm s).wakeFlag = s.wakeFlag := rfl
@[simp] theorem showAlarm_tickAcc (s : State) : (showAlarm s).tickAcc = s.tickAcc := rfl
@[simp] theorem showAlarm_slowCnt (s : State) : (showAlarm s).slowCnt = s.slowCnt := rfl
@[simp] theorem showAlarm_raw (s : State) : (showAlarm s).raw = s.raw := rfl
@[simp] theorem showAlarm_sweepSig (s : State) : (showAlarm s).sweepSig = s.sweepSig := rfl
@[simp] theorem showAlarm_prev (s : State) : (showAlarm s).prev = s.prev := rfl
@[simp] theorem showAlarm_stable (s : State) : (showAlarm s).stable = s.stable := rfl
@[simp] theorem showAlarm_edge (s : State) : (showAlarm s).edge = s.edge := rfl
@[simp] theorem showAlarm_lastStable (s : State) : (showAlarm s).lastStable = s.lastStable := rfl
@[simp] theorem showAlarm_phase (s : State) : (showAlarm s).phase = s.phase := rfl
@[simp] theorem showAlarm_idle (s : State) : (showAlarm s).idle = s.idle := rfl
@[simp] theorem showAlarm_fault (s : State) : (showAlarm s).fault = s.fault := rfl
@[simp] theorem showAlarm_ds (s : State) : (showAlarm s).ds = s.ds := rfl
@[simp] theorem showAlarm_segsel (s : State) : (showAlarm s).segsel = s.segsel := rfl
@[simp] theorem showAlarm_params (s : State) : (showAlarm s).params = s.params := rfl
@[simp] theorem showAlarm_trace (s : State) : (showAlarm s).trace = s.trace := rfl
@[simp] theorem showAlarm_schedule (s : State) : (showAlarm s).schedule = s.schedule := rfl
@[simp] theorem showAlarm_isolated (s : State) : (showAlarm s).isolated = s.isolated := rfl
@[simp] theorem showAlarm_levels (s : State) : (showAlarm s).levels = s.levels := rfl
@[simp] theorem showAlarm_draws (s : State) : (showAlarm s).draws = s.draws := rfl

/-! ### beginIdle -/

@[simp] theorem beginIdle_clock (s : State) : (beginIdle s).clock = s.clock := rfl
@[simp] theorem beginIdle_alarm (s : State) : (beginIdle s).alarm = s.alarm := rfl
@[simp] theorem beginIdle_sounding (s : State) : (beginIdle s).sounding = s.sounding := rfl
@[simp] theorem beginIdle_silenced (s : State) : (beginIdle s).silenced = s.silenced := rfl
@[simp] theorem beginIdle_blinkPhase (s : State) : (beginIdle s).blinkPhase = s.blinkPhase := rfl
@[simp] theorem beginIdle_countdown (s : State) : (beginIdle s).countdown = s.countdown := rfl
@[simp] theorem beginIdle_asleep (s : State) : (beginIdle s).asleep = s.asleep := rfl
@[simp] theorem beginIdle_settingAlarm (s : State) : (beginIdle s).settingAlarm = s.settingAlarm := rfl
@[simp] theorem beginIdle_wakeIE (s : State) : (beginIdle s).wakeIE = s.wakeIE := rfl
@[simp] theorem beginIdle_wakeFlag (s : State) : (beginIdle s).wakeFlag = s.wakeFlag := rfl
@[simp] theorem beginIdle_tickAcc (s : State) : (beginIdle s).tickAcc = s.tickAcc := rfl
@[simp] theorem beginIdle_slowCnt (s : State) : (beginIdle s).slowCnt = s.slowCnt := rfl
@[simp] theorem beginIdle_raw (s : State) : (beginIdle s).raw = s.raw := rfl
@[simp] theorem beginIdle_sweepSig (s : State) : (beginIdle s).sweepSig = s.sweepSig := rfl
@[simp] theorem beginIdle_prev (s : State) : (beginIdle s).prev = s.prev := rfl
@[simp] theorem beginIdle_stable (s : State) : (beginIdle s).stable = s.stable := rfl
@[simp] theorem beginIdle_edge (s : State) : (beginIdle s).edge = s.edge := rfl
@[simp] theorem beginIdle_lastStable (s : State) : (beginIdle s).lastStable = s.lastStable := rfl
@[simp] theorem beginIdle_phase (s : State) : (beginIdle s).phase = s.phase := rfl
@[simp] theorem beginIdle_idle (s : State) : (beginIdle s).idle = true := rfl
@[simp] theorem beginIdle_fault (s : State) : (beginIdle s).fault = s.fault := rfl
@[simp] theorem beginIdle_ds (s : State) : (beginIdle s).ds = s.ds := rfl
@[simp] theorem beginIdle_segsel (s : State) : (beginIdle s).segsel = s.segsel := rfl
@[simp] theorem beginIdle_params (s : State) : (beginIdle s).params = s.params := rfl
@[simp] theorem beginIdle_trace (s : State) : (beginIdle s).trace = s.trace := rfl
@[simp] theorem beginIdle_schedule (s : State) : (beginIdle s).schedule = s.schedule := rfl
@[simp] theorem beginIdle_isolated (s : State) : (beginIdle s).isolated = s.isolated := rfl
@[simp] theorem beginIdle_levels (s : State) : (beginIdle s).levels = s.levels := rfl
@[simp] theorem beginIdle_draws (s : State) : (beginIdle s).draws = s.draws := rfl

/-! ### toggleSetting -/

@[simp] theorem toggleSetting_clock (s : State) : (toggleSetting s).clock = s.clock := rfl
@[simp] theorem toggleSetting_alarm (s : State) : (toggleSetting s).alarm = s.alarm := rfl
@[simp] theorem toggleSetting_sounding (s : State) : (toggleSetting s).sounding = s.sounding := rfl
@[simp] theorem toggleSetting_silenced (s : State) : (toggleSetting s).silenced = s.silenced := rfl
@[simp] theorem toggleSetting_blinkPhase (s : State) : (toggleSetting s).blinkPhase = true := rfl
@[simp] theorem toggleSetting_countdown (s : State) : (toggleSetting s).countdown = s.countdown := rfl
@[simp] theorem toggleSetting_asleep (s : State) : (toggleSetting s).asleep = s.asleep := rfl
@[simp] theorem toggleSetting_settingAlarm (s : State) : (toggleSetting s).settingAlarm = !s.settingAlarm := rfl
@[simp] theorem toggleSetting_wakeIE (s : State) : (toggleSetting s).wakeIE = s.wakeIE := rfl
@[simp] theorem toggleSetting_wakeFlag (s : State) : (toggleSetting s).wakeFlag = s.wakeFlag := rfl
@[simp] theorem toggleSetting_tickAcc (s : State) : (toggleSetting s).tickAcc = s.tickAcc := rfl
@[simp] theorem toggleSetting_slowCnt (s : State) : (toggleSetting s).slowCnt = s.slowCnt := rfl
@[simp] theorem toggleSetting_raw (s : State) : (toggleSetting s).raw = s.raw := rfl
@[simp] theorem toggleSetting_sweepSig (s : State) : (toggleSetting s).sweepSig = s.sweepSig := rfl
@[simp] theorem toggleSetting_prev (s : State) : (toggleSetting s).prev = s.prev := rfl
@[simp] theorem toggleSetting_stable (s : State) : (toggleSetting s).stable = s.stable := rfl
@[simp] theorem toggleSetting_edge (s : State) : (toggleSetting s).edge = s.edge := rfl
@[simp] theorem toggleSetting_lastStable (s : State) : (toggleSetting s).lastStable = s.lastStable := rfl
@[simp] theorem toggleSetting_phase (s : State) : (toggleSetting s).phase = s.phase := rfl
@[simp] theorem toggleSetting_idle (s : State) : (toggleSetting s).idle = s.idle := rfl
@[simp] theorem toggleSetting_fault (s : State) : (toggleSetting s).fault = s.fault := rfl
@[simp] theorem toggleSetting_ds (s : State) : (toggleSetting s).ds = s.ds := rfl
@[simp] theorem toggleSetting_segsel (s : State) : (toggleSetting s).segsel = s.segsel := rfl
@[simp] theorem toggleSetting_params (s : State) : (toggleSetting s).params = s.params := rfl
@[simp] theorem toggleSetting_trace (s : State) : (toggleSetting s).trace = s.trace := rfl
@[simp] theorem toggleSetting_schedule (s : State) : (toggleSetting s).schedule = s.schedule := rfl
@[simp] theorem toggleSetting_isolated (s : State) : (toggleSetting s).isolated = s.isolated := rfl
@[simp] theorem toggleSetting_levels (s : State) : (toggleSetting s).levels = s.levels := rfl
@[simp] theorem toggleSetting_draws (s : State) : (toggleSetting s).draws = s.draws := rfl

/-! ### enterSleep -/

@[simp] theorem enterSleep_clock (s : State) : (enterSleep s).clock = s.clock := rfl
@[simp] theorem enterSleep_alarm (s : State) : (enterSleep s).alarm = s.alarm := rfl
@[simp] theorem enterSleep_sounding (s : State) : (enterSleep s).sounding = s.sounding := rfl
@[simp] theorem enterSleep_silenced (s : State) : (enterSleep s).silenced = s.silenced := rfl
@[simp] theorem enterSleep_blinkPhase (s : State) : (enterSleep s).blinkPhase = true := rfl
@[simp] theorem enterSleep_countdown (s : State) : (enterSleep s).countdown = s.countdown := rfl
@[simp] theorem enterSleep_asleep (s : State) : (enterSleep s).asleep = true := rfl
@[simp] theorem enterSleep_settingAlarm (s : State) : (enterSleep s).settingAlarm = false := rfl
@[simp] theorem enterSleep_wakeIE (s : State) : (enterSleep s).wakeIE = true := rfl
@[simp] theorem enterSleep_wakeFlag (s : State) : (enterSleep s).wakeFlag = s.wakeFlag := rfl
@[simp] theorem enterSleep_tickAcc (s : State) : (enterSleep s).tickAcc = s.tickAcc := rfl
@[simp] theorem enterSleep_slowCnt (s : State) : (enterSleep s).slowCnt = s.slowCnt := rfl
@[simp] theorem enterSleep_raw (s : State) : (enterSleep s).raw = s.raw := rfl
@[simp] theorem enterSleep_sweepSig (s : State) : (enterSleep s).sweepSig = s.sweepSig := rfl
@[simp] theorem enterSleep_prev (s : State) : (enterSleep s).prev = s.prev := rfl
@[simp] theorem enterSleep_stable (s : State) : (enterSleep s).stable = s.stable := rfl
@[simp] theorem enterSleep_edge (s : State) : (enterSleep s).edge = s.edge := rfl
@[simp] theorem enterSleep_lastStable (s : State) : (enterSleep s).lastStable = s.lastStable := rfl
@[simp] theorem enterSleep_phase (s : State) : (enterSleep s).phase = s.phase := rfl
@[simp] theorem enterSleep_idle (s : State) : (enterSleep s).idle = s.idle := rfl
@[simp] theorem enterSleep_fault (s : State) : (enterSleep s).fault = s.fault := rfl
@[simp] theorem enterSleep_ds (s : State) : (enterSleep s).ds = s.ds := rfl
@[simp] theorem enterSleep_segsel (s : State) : (enterSleep s).segsel = s.segsel := rfl
@[simp] theorem enterSleep_params (s : State) : (enterSleep s).params = s.params := rfl
@[simp] theorem enterSleep_trace (s : State) : (enterSleep s).trace = s.trace := rfl
@[simp] theorem enterSleep_schedule (s : State) : (enterSleep s).schedule = s.schedule := rfl
@[simp] theorem enterSleep_isolated (s : State) : (enterSleep s).isolated = s.isolated := rfl
@[simp] theorem enterSleep_levels (s : State) : (enterSleep s).levels = s.levels := rfl
@[simp] theorem enterSleep_draws (s : State) : (enterSleep s).draws = s.draws := rfl

/-! ### setWakePending -/

@[simp] theorem setWakePending_clock (s : State) : (setWakePending s).clock = s.clock := rfl
@[simp] theorem setWakePending_alarm (s : State) : (setWakePending s).alarm = s.alarm := rfl
@[simp] theorem setWakePending_sounding (s : State) : (setWakePending s).sounding = s.sounding := rfl
@[simp] theorem setWakePending_silenced (s : State) : (setWakePending s).silenced = s.silenced := rfl
@[simp] theorem setWakePending_blinkPhase (s : State) : (setWakePending s).blinkPhase = s.blinkPhase := rfl
@[simp] theorem setWakePending_countdown (s : State) : (setWakePending s).countdown = s.countdown := rfl
@[simp] theorem setWakePending_asleep (s : State) : (setWakePending s).asleep = s.asleep := rfl
@[simp] theorem setWakePending_settingAlarm (s : State) : (setWakePending s).settingAlarm = s.settingAlarm := rfl
@[simp] theorem setWakePending_wakeIE (s : State) : (setWakePending s).wakeIE = s.wakeIE := rfl
@[simp] theorem setWakePending_wakeFlag (s : State) : (setWakePending s).wakeFlag = true := rfl
@[simp] theorem setWakePending_tickAcc (s : State) : (setWakePending s).tickAcc = s.tickAcc := rfl
@[simp] theorem setWakePending_slowCnt (s : State) : (setWakePending s).slowCnt = s.slowCnt := rfl
@[simp] theorem setWakePending_raw (s : State) : (setWakePending s).raw = s.raw := rfl
@[simp] theorem setWakePending_sweepSig (s : State) : (setWakePending s).sweepSig = s.sweepSig := rfl
@[simp] theorem setWakePending_prev (s : State) : (setWakePending s).prev = s.prev := rfl
@[simp] theorem setWakePending_stable (s : State) : (setWakePending s).stable = s.stable := rfl
@[simp] theorem setWakePending_edge (s : State) : (setWakePending s).edge = s.edge := rfl
@[simp] theorem setWakePending_lastStable (s : State) : (setWakePending s).lastStable = s.lastStable := rfl
@[simp] theorem setWakePending_phase (s : State) : (setWakePending s).phase = s.phase := rfl
@[simp] theorem setWakePending_idle (s : State) : (setWakePending s).idle = s.idle := rfl
@[simp] theorem setWakePending_fault (s : State) : (setWakePending s).fault = s.fault := rfl
@[simp] theorem setWakePending_ds (s : State) : (setWakePending s).ds = s.ds := rfl
@[simp] theorem setWakePending_segsel (s : State) : (setWakePending s).segsel = s.segsel := rfl
@[simp] theorem setWakePending_params (s : State) : (setWakePending s).params = s.params := rfl
@[simp] theorem setWakePending_trace (s : State) : (setWakePending s).trace = s.trace := rfl
@[simp] theorem setWakePending_schedule (s : State) : (setWakePending s).schedule = s.schedule := rfl
@[simp] theorem setWakePending_isolated (s : State) : (setWakePending s).isolated = s.isolated := rfl
@[simp] theorem setWakePending_levels (s : State) : (setWakePending s).levels = s.levels := rfl
@[simp] theorem setWakePending_draws (s : State) : (setWakePending s).draws = s.draws := rfl

/-! ### wakeIsr -/

@[simp] theorem wakeIsr_clock (s : State) : (wakeIsr s).clock = s.clock := rfl
@[simp] theorem wakeIsr_alarm (s : State) : (wakeIsr s).alarm = s.alarm := rfl
@[simp] theorem wakeIsr_sounding (s : State) : (wakeIsr s).sounding = s.sounding := rfl
@[simp] theorem wakeIsr_silenced (s : State) : (wakeIsr s).silenced = (s.silenced || alarmActive s) := rfl
@[simp] theorem wakeIsr_blinkPhase (s : State) : (wakeIsr s).blinkPhase = s.blinkPhase := rfl
@[simp] theorem wakeIsr_countdown (s : State) : (wakeIsr s).countdown = s.params.autoOffTicks := rfl
@[simp] theorem wakeIsr_asleep (s : State) : (wakeIsr s).asleep = false := rfl
@[simp] theorem wakeIsr_settingAlarm (s : State) : (wakeIsr s).settingAlarm = s.settingAlarm := rfl
@[simp] theorem wakeIsr_wakeIE (s : State) : (wakeIsr s).wakeIE = false := rfl
@[simp] theorem wakeIsr_wakeFlag (s : State) : (wakeIsr s).wakeFlag = false := rfl
@[simp] theorem wakeIsr_tickAcc (s : State) : (wakeIsr s).tickAcc = s.tickAcc := rfl
@[simp] theorem wakeIsr_slowCnt (s : State) : (wakeIsr s).slowCnt = s.slowCnt := rfl
@[simp] theorem wakeIsr_raw (s : State) : (wakeIsr s).raw = s.raw := rfl
@[simp] theorem wakeIsr_sweepSig (s : State) : (wakeIsr s).sweepSig = s.sweepSig := rfl
@[simp] theorem wakeIsr_prev (s : State) : (wakeIsr s).prev = s.prev := rfl
@[simp] theorem wakeIsr_stable (s : State) : (wakeIsr s).stable = s.stable := rfl
@[simp] theorem wakeIsr_edge (s : State) : (wakeIsr s).edge = s.edge := rfl
@[simp] theorem wakeIsr_lastStable (s : State) : (wakeIsr s).lastStable = s.lastStable := rfl
@[simp] theorem wakeIsr_phase (s : State) : (wakeIsr s).phase = s.phase := rfl
@[simp] theorem wakeIsr_idle (s : State) : (wakeIsr s).idle = false := rfl
@[simp] theorem wakeIsr_fault (s : State) : (wakeIsr s).fault = s.fault := rfl
@[simp] theorem wakeIsr_ds (s : State) : (wakeIsr s).ds = s.ds := rfl
@[simp] theorem wakeIsr_segsel (s : State) : (wakeIsr s).segsel = s.segsel := rfl
@[simp] theorem wakeIsr_params (s : State) : (wakeIsr s).params = s.params := rfl
@[simp] theorem wakeIsr_trace (s : State) : (wakeIsr s).trace = s.trace := rfl
@[simp] theorem wakeIsr_schedule (s : State) : (wakeIsr s).schedule = s.schedule := rfl
@[simp] theorem wakeIsr_isolated (s : State) : (wakeIsr s).isolated = s.isolated := rfl
@[simp] theorem wakeIsr_levels (s : State) : (wakeIsr s).levels = s.levels := rfl
@[simp] theorem wakeIsr_draws (s : State) : (wakeIsr s).draws = s.draws := rfl

/-! ### writePins -/

@[simp] theorem writePins_clock (es : List PinEvent) (s : State) : (writePins es s).clock = s.clock := rfl
@[simp] theorem writePins_alarm (es : List PinEvent) (s : State) : (writePins es s).alarm = s.alarm := rfl
@[simp] theorem writePins_sounding (es : List PinEvent) (s : State) : (writePins es s).sounding = s.sounding := rfl
@[simp] theorem writePins_silenced (es : List PinEvent) (s : State) : (writePins es s).silenced = s.silenced := rfl
@[simp] theorem writePins_blinkPhase (es : List PinEvent) (s : State) : (writePins es s).blinkPhase = s.blinkPhase := rfl
@[simp] theorem writePins_countdown (es : List PinEvent) (s : State) : (writePins es s).countdown = s.countdown := rfl
@[simp] theorem writePins_asleep (es : List PinEvent) (s : State) : (writePins es s).asleep = s.asleep := rfl
@[simp] theorem writePins_settingAlarm (es : List PinEvent) (s : State) : (writePins es s).settingAlarm = s.settingAlarm := rfl
@[simp] theorem writePins_wakeIE (es : List PinEvent) (s : State) : (writePins es s).wakeIE = s.wakeIE := rfl
@[simp] theorem writePins_wakeFlag (es : List PinEvent) (s : State) : (writePins es s).wakeFlag = s.wakeFlag := rfl
@[simp] theorem writePins_tickAcc (es : List PinEvent) (s : State) : (writePins es s).tickAcc = s.tickAcc := rfl
@[simp] theorem writePins_slowCnt (es : List PinEvent) (s : State) : (writePins es s).slowCnt = s.slowCnt := rfl
@[simp] theorem writePins_raw (es : List PinEvent) (s : State) : (writePins es s).raw = s.raw := rfl
@[simp] theorem writePins_sweepSig (es : List PinEvent) (s : State) : (writePins es s).sweepSig = s.sweepSig := rfl
@[simp] theorem writePins_prev (es : List PinEvent) (s : State) : (writePins es s).prev = s.prev := rfl
@[simp] theorem writePins_stable (es : List PinEvent) (s : State) : (writePins es s).stable = s.stable := rfl
@[simp] theorem writePins_edge (es : List PinEvent) (s : State) : (writePins es s).edge = s.edge := rfl
@[simp] theorem writePins_lastStable (es : List PinEvent) (s : State) : (writePins es s).lastStable = s.lastStable := rfl
@[simp] theorem writePins_phase (es : List PinEvent) (s : State) : (writePins es s).phase = s.phase := rfl
@[simp] theorem writePins_idle (es : List PinEvent) (s : State) : (writePins es s).idle = s.idle := rfl
@[simp] theorem writePins_fault (es : List PinEvent) (s : State) : (writePins es s).fault = s.fault := rfl
@[simp] theorem writePins_ds (es : List PinEvent) (s : State) : (writePins es s).ds = es.foldl (fun v e => dsAfter e v) s.ds := rfl
@[simp] theorem writePins_segsel (es : List PinEvent) (s : State) : (writePins es s).segsel = es.foldl (fun v e => segselAfter e v) s.segsel := rfl
@[simp] theorem writePins_params (es : List PinEvent) (s : State) : (writePins es s).params = s.params := rfl
@[simp] theorem writePins_trace (es : List PinEvent) (s : State) : (writePins es s).trace = s.trace ++ es := rfl
@[simp] theorem writePins_schedule (es : List PinEvent) (s : State) : (writePins es s).schedule = s.schedule := rfl
@[simp] theorem writePins_isolated (es : List PinEvent) (s : State) : (writePins es s).isolated = s.isolated := rfl
@[simp] theorem writePins_levels (es : List PinEvent) (s : State) : (writePins es s).levels = s.levels := rfl
@[simp] theorem writePins_draws (es : List PinEvent) (s : State) : (writePins es s).draws = s.draws := rfl

/-! ### driveSlot -/

@[simp] theorem driveSlot_clock (i : Position) (m : SegMask) (s : State) : (driveSlot i m s).clock = s.clock := rfl
@[simp] theorem driveSlot_alarm (i : Position) (m : SegMask) (s : State) : (driveSlot i m s).alarm = s.alarm := rfl
@[simp] theorem driveSlot_sounding (i : Position) (m : SegMask) (s : State) : (driveSlot i m s).sounding = s.sounding := rfl
@[simp] theorem driveSlot_silenced (i : Position) (m : SegMask) (s : State) : (driveSlot i m s).silenced = s.silenced := rfl
@[simp] theorem driveSlot_blinkPhase (i : Position) (m : SegMask) (s : State) : (driveSlot i m s).blinkPhase = s.blinkPhase := rfl
@[simp] theorem driveSlot_countdown (i : Position) (m : SegMask) (s : State) : (driveSlot i m s).countdown = s.countdown := rfl
@[simp] theorem driveSlot_asleep (i : Position) (m : SegMask) (s : State) : (driveSlot i m s).asleep = s.asleep := rfl
@[simp] theorem driveSlot_settingAlarm (i : Position) (m : SegMask) (s : State) : (driveSlot i m s).settingAlarm = s.settingAlarm := rfl
@[simp] theorem driveSlot_wakeIE (i : Position) (m : SegMask) (s : State) : (driveSlot i m s).wakeIE = s.wakeIE := rfl
@[simp] theorem driveSlot_wakeFlag (i : Position) (m : SegMask) (s : State) : (driveSlot i m s).wakeFlag = s.wakeFlag := rfl
@[simp] theorem driveSlot_tickAcc (i : Position) (m : SegMask) (s : State) : (driveSlot i m s).tickAcc = s.tickAcc := rfl
@[simp] theorem driveSlot_slowCnt (i : Position) (m : SegMask) (s : State) : (driveSlot i m s).slowCnt = s.slowCnt := rfl
@[simp] theorem driveSlot_raw (i : Position) (m : SegMask) (s : State) : (driveSlot i m s).raw = s.raw := rfl
@[simp] theorem driveSlot_sweepSig (i : Position) (m : SegMask) (s : State) : (driveSlot i m s).sweepSig = s.sweepSig := rfl
@[simp] theorem driveSlot_prev (i : Position) (m : SegMask) (s : State) : (driveSlot i m s).prev = s.prev := rfl
@[simp] theorem driveSlot_stable (i : Position) (m : SegMask) (s : State) : (driveSlot i m s).stable = s.stable := rfl
@[simp] theorem driveSlot_edge (i : Position) (m : SegMask) (s : State) : (driveSlot i m s).edge = s.edge := rfl
@[simp] theorem driveSlot_lastStable (i : Position) (m : SegMask) (s : State) : (driveSlot i m s).lastStable = s.lastStable := rfl
@[simp] theorem driveSlot_phase (i : Position) (m : SegMask) (s : State) : (driveSlot i m s).phase = s.phase := rfl
@[simp] theorem driveSlot_idle (i : Position) (m : SegMask) (s : State) : (driveSlot i m s).idle = s.idle := rfl
@[simp] theorem driveSlot_fault (i : Position) (m : SegMask) (s : State) : (driveSlot i m s).fault = s.fault := rfl
@[simp] theorem driveSlot_ds (i : Position) (m : SegMask) (s : State) : (driveSlot i m s).ds = onehot i := rfl
@[simp] theorem driveSlot_segsel (i : Position) (m : SegMask) (s : State) : (driveSlot i m s).segsel = 7 := rfl
@[simp] theorem driveSlot_params (i : Position) (m : SegMask) (s : State) : (driveSlot i m s).params = s.params := rfl
@[simp] theorem driveSlot_trace (i : Position) (m : SegMask) (s : State) : (driveSlot i m s).trace = s.trace ++ slotEvents i m := rfl
@[simp] theorem driveSlot_schedule (i : Position) (m : SegMask) (s : State) : (driveSlot i m s).schedule = s.schedule := rfl
@[simp] theorem driveSlot_isolated (i : Position) (m : SegMask) (s : State) : (driveSlot i m s).isolated = s.isolated := rfl
@[simp] theorem driveSlot_levels (i : Position) (m : SegMask) (s : State) : (driveSlot i m s).levels = s.levels := rfl
@[simp] theorem driveSlot_draws (i : Position) (m : SegMask) (s : State) : (driveSlot i m s).draws = s.draws := rfl

/-! ### afterRead -/

@[simp] theorem afterRead_clock (s : State) : (afterRead s).clock = s.clock := rfl
@[simp] theorem afterRead_alarm (s : State) : (afterRead s).alarm = s.alarm := rfl
@[simp] theorem afterRead_sounding (s : State) : (afterRead s).sounding = s.sounding := rfl
@[simp] theorem afterRead_silenced (s : State) : (afterRead s).silenced = s.silenced := rfl
@[simp] theorem afterRead_blinkPhase (s : State) : (afterRead s).blinkPhase = s.blinkPhase := rfl
@[simp] theorem afterRead_countdown (s : State) : (afterRead s).countdown = s.countdown := rfl
@[simp] theorem afterRead_asleep (s : State) : (afterRead s).asleep = s.asleep := rfl
@[simp] theorem afterRead_settingAlarm (s : State) : (afterRead s).settingAlarm = s.settingAlarm := rfl
@[simp] theorem afterRead_wakeIE (s : State) : (afterRead s).wakeIE = s.wakeIE := rfl
@[simp] theorem afterRead_wakeFlag (s : State) : (afterRead s).wakeFlag = s.wakeFlag := rfl
@[simp] theorem afterRead_tickAcc (s : State) : (afterRead s).tickAcc = s.tickAcc := rfl
@[simp] theorem afterRead_slowCnt (s : State) : (afterRead s).slowCnt = s.slowCnt := rfl
@[simp] theorem afterRead_raw (s : State) : (afterRead s).raw = s.raw := rfl
@[simp] theorem afterRead_sweepSig (s : State) : (afterRead s).sweepSig = s.sweepSig := rfl
@[simp] theorem afterRead_prev (s : State) : (afterRead s).prev = s.prev := rfl
@[simp] theorem afterRead_stable (s : State) : (afterRead s).stable = s.stable := rfl
@[simp] theorem afterRead_edge (s : State) : (afterRead s).edge = s.edge := rfl
@[simp] theorem afterRead_lastStable (s : State) : (afterRead s).lastStable = s.lastStable := rfl
@[simp] theorem afterRead_phase (s : State) : (afterRead s).phase = s.phase := rfl
@[simp] theorem afterRead_idle (s : State) : (afterRead s).idle = s.idle := rfl
@[simp] theorem afterRead_fault (s : State) : (afterRead s).fault = s.fault := rfl
@[simp] theorem afterRead_ds (s : State) : (afterRead s).ds = s.ds := rfl
@[simp] theorem afterRead_segsel (s : State) : (afterRead s).segsel = s.segsel := rfl
@[simp] theorem afterRead_params (s : State) : (afterRead s).params = s.params := rfl
@[simp] theorem afterRead_trace (s : State) : (afterRead s).trace = s.trace := rfl
@[simp] theorem afterRead_schedule (s : State) : (afterRead s).schedule = s.schedule := rfl
@[simp] theorem afterRead_isolated (s : State) : (afterRead s).isolated = s.isolated := rfl
@[simp] theorem afterRead_levels (s : State) : (afterRead s).levels = s.levels.tail := rfl
@[simp] theorem afterRead_draws (s : State) : (afterRead s).draws = if s.levels.isEmpty then s.draws + 1 else s.draws := rfl

/-! ### senseSlot -/

@[simp] theorem senseSlot_clock (i : Position) (s : State) : (senseSlot i s).clock = s.clock := rfl
@[simp] theorem senseSlot_alarm (i : Position) (s : State) : (senseSlot i s).alarm = s.alarm := rfl
@[simp] theorem senseSlot_sounding (i : Position) (s : State) : (senseSlot i s).sounding = s.sounding := rfl
@[simp] theorem senseSlot_silenced (i : Position) (s : State) : (senseSlot i s).silenced = s.silenced := rfl
@[simp] theorem senseSlot_blinkPhase (i : Position) (s : State) : (senseSlot i s).blinkPhase = s.blinkPhase := rfl
@[simp] theorem senseSlot_countdown (i : Position) (s : State) : (senseSlot i s).countdown = s.countdown := rfl
@[simp] theorem senseSlot_asleep (i : Position) (s : State) : (senseSlot i s).asleep = s.asleep := rfl
@[simp] theorem senseSlot_settingAlarm (i : Position) (s : State) : (senseSlot i s).settingAlarm = s.settingAlarm := rfl
@[simp] theorem senseSlot_wakeIE (i : Position) (s : State) : (senseSlot i s).wakeIE = s.wakeIE := rfl
@[simp] theorem senseSlot_wakeFlag (i : Position) (s : State) : (senseSlot i s).wakeFlag = s.wakeFlag := rfl
@[simp] theorem senseSlot_tickAcc (i : Position) (s : State) : (senseSlot i s).tickAcc = s.tickAcc := rfl
@[simp] theorem senseSlot_slowCnt (i : Position) (s : State) : (senseSlot i s).slowCnt = s.slowCnt := rfl
@[simp] theorem senseSlot_raw (i : Position) (s : State) : (senseSlot i s).raw = s.raw := rfl
@[simp] theorem senseSlot_sweepSig (i : Position) (s : State) : (senseSlot i s).sweepSig = if pinLevel .sense s then slotCode i else s.sweepSig := rfl
@[simp] theorem senseSlot_prev (i : Position) (s : State) : (senseSlot i s).prev = s.prev := rfl
@[simp] theorem senseSlot_stable (i : Position) (s : State) : (senseSlot i s).stable = s.stable := rfl
@[simp] theorem senseSlot_edge (i : Position) (s : State) : (senseSlot i s).edge = s.edge := rfl
@[simp] theorem senseSlot_lastStable (i : Position) (s : State) : (senseSlot i s).lastStable = s.lastStable := rfl
@[simp] theorem senseSlot_phase (i : Position) (s : State) : (senseSlot i s).phase = s.phase + 1 := rfl
@[simp] theorem senseSlot_idle (i : Position) (s : State) : (senseSlot i s).idle = s.idle := rfl
@[simp] theorem senseSlot_fault (i : Position) (s : State) : (senseSlot i s).fault = s.fault := rfl
@[simp] theorem senseSlot_ds (i : Position) (s : State) : (senseSlot i s).ds = s.ds := rfl
@[simp] theorem senseSlot_segsel (i : Position) (s : State) : (senseSlot i s).segsel = s.segsel := rfl
@[simp] theorem senseSlot_params (i : Position) (s : State) : (senseSlot i s).params = s.params := rfl
@[simp] theorem senseSlot_trace (i : Position) (s : State) : (senseSlot i s).trace = s.trace := rfl
@[simp] theorem senseSlot_schedule (i : Position) (s : State) : (senseSlot i s).schedule = s.schedule := rfl
@[simp] theorem senseSlot_isolated (i : Position) (s : State) : (senseSlot i s).isolated = s.isolated := rfl
@[simp] theorem senseSlot_levels (i : Position) (s : State) : (senseSlot i s).levels = s.levels.tail := rfl
@[simp] theorem senseSlot_draws (i : Position) (s : State) : (senseSlot i s).draws = if s.levels.isEmpty then s.draws + 1 else s.draws := rfl

/-! ### sweepEnd -/

@[simp] theorem sweepEnd_clock (s : State) : (sweepEnd s).clock = s.clock := rfl
@[simp] theorem sweepEnd_alarm (s : State) : (sweepEnd s).alarm = s.alarm := rfl
@[simp] theorem sweepEnd_sounding (s : State) : (sweepEnd s).sounding = s.sounding := rfl
@[simp] theorem sweepEnd_silenced (s : State) : (sweepEnd s).silenced = s.silenced := rfl
@[simp] theorem sweepEnd_blinkPhase (s : State) : (sweepEnd s).blinkPhase = s.blinkPhase := rfl
@[simp] theorem sweepEnd_countdown (s : State) : (sweepEnd s).countdown = s.countdown := rfl
@[simp] theorem sweepEnd_asleep (s : State) : (sweepEnd s).asleep = s.asleep := rfl
@[simp] theorem sweepEnd_settingAlarm (s : State) : (sweepEnd s).settingAlarm = s.settingAlarm := rfl
@[simp] theorem sweepEnd_wakeIE (s : State) : (sweepEnd s).wakeIE = s.wakeIE := rfl
@[simp] theorem sweepEnd_wakeFlag (s : State) : (sweepEnd s).wakeFlag = s.wakeFlag := rfl
@[simp] theorem sweepEnd_tickAcc (s : State) : (sweepEnd s).tickAcc = s.tickAcc := rfl
@[simp] theorem sweepEnd_slowCnt (s : State) : (sweepEnd s).slowCnt = s.slowCnt := rfl
@[simp] theorem sweepEnd_raw (s : State) : (sweepEnd s).raw = if pinLevel .wake s then .all else s.sweepSig := rfl
@[simp] theorem sweepEnd_sweepSig (s : State) : (sweepEnd s).sweepSig = .none := rfl
@[simp] theorem sweepEnd_prev (s : State) : (sweepEnd s).prev = s.prev := rfl
@[simp] theorem sweepEnd_stable (s : State) : (sweepEnd s).stable = s.stable := rfl
@[simp] theorem sweepEnd_edge (s : State) : (sweepEnd s).edge = s.edge := rfl
@[simp] theorem sweepEnd_lastStable (s : State) : (sweepEnd s).lastStable = s.lastStable := rfl
@[simp] theorem sweepEnd_phase (s : State) : (sweepEnd s).phase = 7 := rfl
@[simp] theorem sweepEnd_idle (s : State) : (sweepEnd s).idle = s.idle := rfl
@[simp] theorem sweepEnd_fault (s : State) : (sweepEnd s).fault = s.fault := rfl
@[simp] theorem sweepEnd_ds (s : State) : (sweepEnd s).ds = 0 := rfl
@[simp] theorem sweepEnd_segsel (s : State) : (sweepEnd s).segsel = s.segsel := rfl
@[simp] theorem sweepEnd_params (s : State) : (sweepEnd s).params = s.params := rfl
@[simp] theorem sweepEnd_trace (s : State) : (sweepEnd s).trace = s.trace ++ [.ds 0] := rfl
@[simp] theorem sweepEnd_schedule (s : State) : (sweepEnd s).schedule = s.schedule := rfl
@[simp] theorem sweepEnd_isolated (s : State) : (sweepEnd s).isolated = s.isolated := rfl
@[simp] theorem sweepEnd_levels (s : State) : (sweepEnd s).levels = s.levels.tail := rfl
@[simp] theorem sweepEnd_draws (s : State) : (sweepEnd s).draws = if s.levels.isEmpty then s.draws + 1 else s.draws := rfl

/-! ### debounce -/

@[simp] theorem debounce_clock (s : State) : (debounce s).clock = s.clock := rfl
@[simp] theorem debounce_alarm (s : State) : (debounce s).alarm = s.alarm := rfl
@[simp] theorem debounce_sounding (s : State) : (debounce s).sounding = s.sounding := rfl
@[simp] theorem debounce_silenced (s : State) : (debounce s).silenced = s.silenced := rfl
@[simp] theorem debounce_blinkPhase (s : State) : (debounce s).blinkPhase = s.blinkPhase := rfl
@[simp] theorem debounce_countdown (s : State) : (debounce s).countdown = s.countdown := rfl
@[simp] theorem debounce_asleep (s : State) : (debounce s).asleep = s.asleep := rfl
@[simp] theorem debounce_settingAlarm (s : State) : (debounce s).settingAlarm = s.settingAlarm := rfl
@[simp] theorem debounce_wakeIE (s : State) : (debounce s).wakeIE = s.wakeIE := rfl
@[simp] theorem debounce_wakeFlag (s : State) : (debounce s).wakeFlag = s.wakeFlag := rfl
@[simp] theorem debounce_tickAcc (s : State) : (debounce s).tickAcc = s.tickAcc := rfl
@[simp] theorem debounce_slowCnt (s : State) : (debounce s).slowCnt = s.slowCnt := rfl
@[simp] theorem debounce_raw (s : State) : (debounce s).raw = debounceSample s.raw := rfl
@[simp] theorem debounce_sweepSig (s : State) : (debounce s).sweepSig = s.sweepSig := rfl
@[simp] theorem debounce_prev (s : State) : (debounce s).prev = debounceSample s.raw := rfl
@[simp] theorem debounce_stable (s : State) : (debounce s).stable = if debounceSample s.raw = s.prev then debounceSample s.raw else .none := rfl
@[simp] theorem debounce_edge (s : State) : (debounce s).edge = pressEdge (if debounceSample s.raw = s.prev then debounceSample s.raw else .none) s.lastStable := rfl
@[simp] theorem debounce_lastStable (s : State) : (debounce s).lastStable = if debounceSample s.raw = s.prev then debounceSample s.raw else .none := rfl
@[simp] theorem debounce_phase (s : State) : (debounce s).phase = 8 := rfl
@[simp] theorem debounce_idle (s : State) : (debounce s).idle = s.idle := rfl
@[simp] theorem debounce_fault (s : State) : (debounce s).fault = s.fault := rfl
@[simp] theorem debounce_ds (s : State) : (debounce s).ds = s.ds := rfl
@[simp] theorem debounce_segsel (s : State) : (debounce s).segsel = s.segsel := rfl
@[simp] theorem debounce_params (s : State) : (debounce s).params = s.params := rfl
@[simp] theorem debounce_trace (s : State) : (debounce s).trace = s.trace := rfl
@[simp] theorem debounce_schedule (s : State) : (debounce s).schedule = s.schedule := rfl
@[simp] theorem debounce_isolated (s : State) : (debounce s).isolated = s.isolated := rfl
@[simp] theorem debounce_levels (s : State) : (debounce s).levels = s.levels := rfl
@[simp] theorem debounce_draws (s : State) : (debounce s).draws = s.draws := rfl

/-! ### writeDigits -/

@[simp] theorem writeDigits_clock_clock (D : DigitSet) (s : State) : (writeDigits .clock D s).clock = D := rfl
@[simp] theorem writeDigits_alarm_clock (D : DigitSet) (s : State) : (writeDigits .alarm D s).clock = s.clock := rfl
@[simp] theorem writeDigits_clock_alarm (D : DigitSet) (s : State) : (writeDigits .clock D s).alarm = s.alarm := rfl
@[simp] theorem writeDigits_alarm_alarm (D : DigitSet) (s : State) : (writeDigits .alarm D s).alarm = D := rfl
@[simp] theorem writeDigits_sounding (t : Target) (D : DigitSet) (s : State) : (writeDigits t D s).sounding = s.sounding := by
  cases t <;> rfl
@[simp] theorem writeDigits_silenced (t : Target) (D : DigitSet) (s : State) : (writeDigits t D s).silenced = s.silenced := by
  cases t <;> rfl
@[simp] theorem writeDigits_blinkPhase (t : Target) (D : DigitSet) (s : State) : (writeDigits t D s).blinkPhase = s.blinkPhase := by
  cases t <;> rfl
@[simp] theorem writeDigits_countdown (t : Target) (D : DigitSet) (s : State) : (writeDigits t D s).countdown = s.countdown := by
  cases t <;> rfl
@[simp] theorem writeDigits_asleep (t : Target) (D : DigitSet) (s : State) : (writeDigits t D s).asleep = s.asleep := by
  cases t <;> rfl
@[simp] theorem writeDigits_settingAlarm (t : Target) (D : DigitSet) (s : State) : (writeDigits t D s).settingAlarm = s.settingAlarm := by
  cases t <;> rfl
@[simp] theorem writeDigits_wakeIE (t : Target) (D : DigitSet) (s : State) : (writeDigits t D s).wakeIE = s.wakeIE := by
  cases t <;> rfl
@[simp] theorem writeDigits_wakeFlag (t : Target) (D : DigitSet) (s : State) : (writeDigits t D s).wakeFlag = s.wakeFlag := by
  cases t <;> rfl
@[simp] theorem writeDigits_tickAcc (t : Target) (D : DigitSet) (s : State) : (writeDigits t D s).tickAcc = s.tickAcc := by
  cases t <;> rfl
@[simp] theorem writeDigits_slowCnt (t : Target) (D : DigitSet) (s : State) : (writeDigits t D s).slowCnt = s.slowCnt := by
  cases t <;> rfl
@[simp] theorem writeDigits_raw (t : Target) (D : DigitSet) (s : State) : (writeDigits t D s).raw = s.raw := by
  cases t <;> rfl
@[simp] theorem writeDigits_sweepSig (t : Target) (D : DigitSet) (s : State) : (writeDigits t D s).sweepSig = s.sweepSig := by
  cases t <;> rfl
@[simp] theorem writeDigits_prev (t : Target) (D : DigitSet) (s : State) : (writeDigits t D s).prev = s.prev := by
  cases t <;> rfl
@[simp] theorem writeDigits_stable (t : Target) (D : DigitSet) (s : State) : (writeDigits t D s).stable = s.stable := by
  cases t <;> rfl
@[simp] theorem writeDigits_edge (t : Target) (D : DigitSet) (s : State) : (writeDigits t D s).edge = s.edge := by
  cases t <;> rfl
@[simp] theorem writeDigits_lastStable (t : Target) (D : DigitSet) (s : State) : (writeDigits t D s).lastStable = s.lastStable := by
  cases t <;> rfl
@[simp] theorem writeDigits_phase (t : Target) (D : DigitSet) (s : State) : (writeDigits t D s).phase = s.phase := by
  cases t <;> rfl
@[simp] theorem writeDigits_idle (t : Target) (D : DigitSet) (s : State) : (writeDigits t D s).idle = s.idle := by
  cases t <;> rfl
@[simp] theorem writeDigits_fault (t : Target) (D : DigitSet) (s : State) : (writeDigits t D s).fault = s.fault := by
  cases t <;> rfl
@[simp] theorem writeDigits_ds (t : Target) (D : DigitSet) (s : State) : (writeDigits t D s).ds = s.ds := by
  cases t <;> rfl
@[simp] theorem writeDigits_segsel (t : Target) (D : DigitSet) (s : State) : (writeDigits t D s).segsel = s.segsel := by
  cases t <;> rfl
@[simp] theorem writeDigits_params (t : Target) (D : DigitSet) (s : State) : (writeDigits t D s).params = s.params := by
  cases t <;> rfl
@[simp] theorem writeDigits_trace (t : Target) (D : DigitSet) (s : State) : (writeDigits t D s).trace = s.trace := by
  cases t <;> rfl
@[simp] theorem writeDigits_schedule (t : Target) (D : DigitSet) (s : State) : (writeDigits t D s).schedule = s.schedule := by
  cases t <;> rfl
@[simp] theorem writeDigits_isolated (t : Target) (D : DigitSet) (s : State) : (writeDigits t D s).isolated = s.isolated := by
  cases t <;> rfl
@[simp] theorem writeDigits_levels (t : Target) (D : DigitSet) (s : State) : (writeDigits t D s).levels = s.levels := by
  cases t <;> rfl
@[simp] theorem writeDigits_draws (t : Target) (D : DigitSet) (s : State) : (writeDigits t D s).draws = s.draws := by
  cases t <;> rfl

end Sys2Proof.Machine
end

