-- ==== Sys2Proof/Laws/Ops.lean ====
section
/-! SUPPORT. One lemma for each shared operation that says once everything it can do. -/

namespace Sys2Proof.Machine

/-! ### Answering where enabled -/

/-- An operation answers a next state exactly when it is enabled, and then the one it computes. -/
theorem performIf_next_iff (b : Bool) (i : Instr) (u t : State) :
    performIf b i u = .next t ↔ b = true ∧ t = u := by
  cases b <;> simp [performIf, eq_comm]

/-- An enabled operation answers the state it computes. -/
@[simp] theorem performIf_true (i : Instr) (u : State) : performIf true i u = .next u := rfl

/-- An operation that is not enabled is refused by name. -/
@[simp] theorem performIf_false (i : Instr) (u : State) : performIf false i u = .refused (.notEnabled i) := rfl

theorem noFault_iff (s : State) : noFault s = true ↔ s.fault = none := by
  simp [noFault, Option.isNone_iff_eq_none]

theorem mainLoopEnabled_iff (p : BitVec 4) (s : State) :
    mainLoopEnabled p s = true ↔ s.fault = none ∧ s.idle = false ∧ s.phase = p := by
  simp [mainLoopEnabled, noFault_iff, and_assoc]

theorem wakeIsrEnabled_iff (s : State) :
    wakeIsrEnabled s = true ↔ s.fault = none ∧ s.wakeIE = true ∧ s.wakeFlag = true := by
  simp [wakeIsrEnabled, noFault_iff, and_assoc]

/-! ### The steps of an operation -/

@[simp] theorem completed_andThen (s : State) (f : State → Effect) : (Effect.completed s).andThen f = f s := rfl

@[simp] theorem raised_andThen (s : State) (f : State → Effect) : (Effect.raised s).andThen f = .raised s := rfl

@[simp] theorem completed_state (s : State) : (Effect.completed s).state = s := rfl

@[simp] theorem raised_state (s : State) : (Effect.raised s).state = s := rfl

/-- The check of a digit set goes on unchanged when the set is valid. -/
theorem checkDigits_of_valid {t : Target} {op : Raiser} {s : State} (h : (digitsOf s t).valid = true) :
    checkDigits t op s = .completed s := by
  simp [checkDigits, h]

/-- The check of a digit set raises InvalidDigit when the set is not valid, and writes only the fault register. -/
theorem checkDigits_of_invalid {t : Target} {op : Raiser} {s : State} (h : (digitsOf s t).valid = false) :
    checkDigits t op s = .raised (recordFault t op s) := by
  simp [checkDigits, h, raiseInvalidDigit]

/-- MINUTE_INCR goes on with the clock advanced, or raises on an invalid clock. -/
theorem minuteIncr_cases (s : State) :
    (s.clock.valid = true ∧ minuteIncr s = .completed (advanceClock s))
      ∨ (s.clock.valid = false
          ∧ minuteIncr s = .raised (recordFault .clock .minuteIncr s)) := by
  cases h : s.clock.valid
  · exact .inr ⟨rfl, by rw [minuteIncr, checkDigits_of_invalid (by exact h)]; rfl⟩
  · exact .inl ⟨rfl, by rw [minuteIncr, checkDigits_of_valid (by exact h)]; rfl⟩

/-- EVAL_ALARM goes on with both flags of the comparison, or raises on the first invalid digit set. -/
theorem evalAlarm_cases (s : State) :
    (s.clock.valid = true ∧ s.alarm.valid = true
        ∧ evalAlarm s = .completed (compareAlarm s))
      ∨ (s.clock.valid = false
          ∧ evalAlarm s = .raised (recordFault .clock .evalAlarm s))
      ∨ (s.clock.valid = true ∧ s.alarm.valid = false
          ∧ evalAlarm s = .raised (recordFault .alarm .evalAlarm s)) := by
  cases h : s.clock.valid
  · exact .inr (.inl ⟨rfl, by rw [evalAlarm, checkDigits_of_invalid (by exact h)]; rfl⟩)
  · cases h' : s.alarm.valid
    · exact .inr (.inr ⟨rfl, rfl, by
        rw [evalAlarm, checkDigits_of_valid (by exact h), completed_andThen, checkDigits_of_invalid (by exact h')]; rfl⟩)
    · exact .inl ⟨rfl, rfl, by
        rw [evalAlarm, checkDigits_of_valid (by exact h), completed_andThen, checkDigits_of_valid (by exact h')]; rfl⟩

/-- SET_INCR goes on with its target stepped or kept and the sub-counter counted, or raises on an invalid target. -/
theorem setIncr_cases (t : Target) (f : Rate) (s : State) :
    ((digitsOf s t).valid = true
        ∧ setIncr t f s = .completed (writeDigits t (digitsAfterSet t f s) (countSet f s)))
      ∨ ((digitsOf s t).valid = false
          ∧ setIncr t f s = .raised (recordFault t .setIncr s)) := by
  cases h : (digitsOf s t).valid
  · exact .inr ⟨rfl, by rw [setIncr, checkDigits_of_invalid h]; rfl⟩
  · exact .inl ⟨rfl, by rw [setIncr, checkDigits_of_valid h]; rfl⟩

/-- Whether the alarm is active is read off its two flags alone. -/
theorem alarmActive_congr {s u : State} (h1 : u.sounding = s.sounding) (h2 : u.silenced = s.silenced) :
    alarmActive u = alarmActive s := by
  rw [alarmActive, alarmActive, h1, h2]

@[simp] theorem alarmActive_reloadCountdown (s : State) : alarmActive (reloadCountdown s) = alarmActive s := rfl

@[simp] theorem target_reloadCountdown (s : State) : target (reloadCountdown s) = target s := rfl

@[simp] theorem digitsOf_reloadCountdown (t : Target) (s : State) :
    digitsOf (reloadCountdown s) t = digitsOf s t := by
  cases t <;> rfl

/-- Writing a digit set back where it was read changes nothing. -/
@[simp] theorem writeDigits_digitsOf (t : Target) (s : State) : writeDigits t (digitsOf s t) s = s := by
  cases t <;> rfl

/-! ### Digits -/

/-- The shown digit set is the target's. -/
theorem shown_eq_digitsOf_target (s : State) : shown s = digitsOf s (target s) := by
  simp only [shown, target]
  split <;> rfl

/-- The bounds a valid digit set gives its elements (10_state.md R18). -/
theorem valid_iff (D : DigitSet) :
    D.valid = true ↔ D.minuteUnits.toNat ≤ 9 ∧ D.minuteTens.toNat ≤ 5 ∧ D.hourUnits.toNat ≤ 9
      ∧ D.hourTens.toNat ≤ 2 ∧ (D.hourTens.toNat = 2 → D.hourUnits.toNat ≤ 3) := by
  simp only [DigitSet.valid, Bool.and_eq_true, decide_eq_true_eq, and_assoc]

/-- Every element of a valid digit set is a decimal digit. -/
theorem get_le_nine {D : DigitSet} (h : D.valid = true) (i : Position) : (D.get i).toNat ≤ 9 := by
  rw [valid_iff] at h
  match i with
  | 0 => exact h.1
  | 1 => exact le_trans h.2.1 (by omega)
  | 2 => exact h.2.2.1
  | 3 => exact le_trans h.2.2.2.1 (by omega)

/-- ENCODE answers a mask for every decimal digit. -/
theorem encodeDigit_isSome {d : Digit} (h : d.toNat ≤ 9) : ∃ m, encodeDigit d = some m := by
  have hl : d.toNat < segmentTable.length := by
    simp only [segmentTable, List.length_cons, List.length_nil]
    omega
  exact ⟨segmentTable[d.toNat], by rw [encodeDigit, List.getElem?_eq_getElem hl]⟩

/-- STROBE renders its slot and samples, or raises on an invalid shown set. -/
theorem strobe_cases (i : Position) (s : State) :
    ((shown s).valid = true ∧ ∃ m, slotMask s i = some m ∧ strobe i s = .completed (senseSlot i (driveSlot i m s)))
      ∨ ((shown s).valid = false
          ∧ strobe i s = .raised { s with fault := some { which := target s, op := .strobe } }) := by
  cases h : (shown s).valid
  · rw [shown_eq_digitsOf_target] at h
    exact .inr ⟨rfl, by rw [strobe, checkDigits_of_invalid h]; rfl⟩
  · have h' := h
    rw [shown_eq_digitsOf_target] at h'
    obtain ⟨m, hm⟩ : ∃ m, slotMask s i = some m := by
      cases hb : s.blinkPhase
      · exact ⟨dashMask, by simp [slotMask, hb]⟩
      · obtain ⟨m, hm⟩ := encodeDigit_isSome (get_le_nine h i)
        exact ⟨m, by simp [slotMask, hb, hm]⟩
    exact .inl ⟨rfl, m, hm, by rw [strobe, checkDigits_of_valid h', completed_andThen, hm]⟩

/-! ### Pins -/

/-- A supplied level is the level read. -/
theorem pinLevel_of_supplied {p : InputPin} {s : State} {level : Bool} {rest : List Bool}
    (h : s.levels = level :: rest) : pinLevel p s = level := by
  simp [pinLevel, h]

/-- With no level supplied the level read is the free value at the count of draws. -/
theorem pinLevel_of_free {p : InputPin} {s : State} (h : s.levels = []) :
    pinLevel p s = Config.freeLevel p s.draws := by
  simp [pinLevel, h]

/-- The level read depends on the environment's fields alone. -/
theorem pinLevel_congr {p : InputPin} {s u : State} (hl : s.levels = u.levels) (hd : s.draws = u.draws) :
    pinLevel p s = pinLevel p u := by
  simp [pinLevel, hl, hd]

end Sys2Proof.Machine
end

