-- ==== Sys2Proof/Laws/Exec.lean ====
section
/-! SUPPORT. What performing an operation can do, said once: whether it is enabled, and the state it computes. -/

namespace Sys2Proof.Machine

/-- Whether an operation is enabled in a state. -/
def enabledIn (i : Instr) (s : State) : Bool :=
  match i with
  | .reset => true
  | .tick => noFault s
  | .wakeEdge => noFault s
  | .wakeIsr => wakeIsrEnabled s
  | .strobe p => mainLoopEnabled (strobePhase p) s
  | .sweepEnd => mainLoopEnabled 6 s
  | .debounce => mainLoopEnabled 7 s
  | .dispatch => mainLoopEnabled 8 s
  | .autoOff => mainLoopEnabled 9 s
  | .alarmService => mainLoopEnabled 0 s
  | .idleCheck => mainLoopEnabled 1 s
  | .minuteIncr => noFault s
  | .setIncr _ _ => noFault s
  | .evalAlarm => noFault s

/-- The state an enabled operation leaves. -/
def stateAfter (i : Instr) (s : State) : State :=
  match i with
  | .reset => (minuteIncr (resetRegisters s)).state
  | .tick => (tick s).state
  | .wakeEdge => wakeEdge s
  | .wakeIsr => wakeIsr s
  | .strobe p => (strobe p s).state
  | .sweepEnd => sweepEnd s
  | .debounce => debounce s
  | .dispatch => (dispatch s).state
  | .autoOff => autoOff s
  | .alarmService => alarmService s
  | .idleCheck => idleCheck s
  | .minuteIncr => (minuteIncr s).state
  | .setIncr t f => (setIncr t f s).state
  | .evalAlarm => (evalAlarm s).state

/-- Every meaning is its effect where it is enabled, and a refusal by name elsewhere. -/
theorem exec_eq_performIf (i : Instr) (s : State) : exec i s = performIf (enabledIn i s) i (stateAfter i s) := by
  cases i <;> rfl

/-- If an operation answers a next state, it was enabled and the state is the one it computes. -/
theorem exec_next_iff (i : Instr) (s t : State) :
    exec i s = .next t ↔ enabledIn i s = true ∧ t = stateAfter i s := by
  rw [exec_eq_performIf, performIf_next_iff]

/-- An operation that is not enabled is refused by name. -/
theorem exec_of_disabled {i : Instr} {s : State} (h : enabledIn i s = false) :
    exec i s = .refused (.notEnabled i) := by
  rw [exec_eq_performIf, h, performIf_false]

/-- An enabled operation answers the state it computes. -/
theorem exec_of_enabled {i : Instr} {s : State} (h : enabledIn i s = true) : exec i s = .next (stateAfter i s) := by
  rw [exec_eq_performIf, h, performIf_true]

/-- Every operation but RESET needs a state without a fault. -/
theorem noFault_of_enabledIn {i : Instr} {s : State} (hi : i ≠ .reset) (h : enabledIn i s = true) :
    s.fault = none := by
  cases i
  case reset => exact absurd rfl hi
  case wakeIsr => exact ((wakeIsrEnabled_iff s).1 h).1
  case tick => exact (noFault_iff s).1 h
  case wakeEdge => exact (noFault_iff s).1 h
  case minuteIncr => exact (noFault_iff s).1 h
  case setIncr => exact (noFault_iff s).1 h
  case evalAlarm => exact (noFault_iff s).1 h
  all_goals exact ((mainLoopEnabled_iff _ s).1 h).1

/-! ### What the operations of several cases compute -/

/-- The state TICK leaves: all five steps, or the writes before the first failing check and its fault. -/
theorem tick_cases (s : State) :
    (∃ u, tickAccumulate (tickBlink s) = .completed u
        ∧ ((u.clock.valid = true ∧ u.alarm.valid = true
              ∧ (tick s).state = tickResume (tickCountDown (compareAlarm u)))
            ∨ (u.clock.valid = false ∧ (tick s).state = recordFault .clock .evalAlarm u)
            ∨ (u.clock.valid = true ∧ u.alarm.valid = false ∧ (tick s).state = recordFault .alarm .evalAlarm u)))
      ∨ (∃ u, tickAccumulate (tickBlink s) = .raised u ∧ (tick s).state = u) := by
  cases h : tickAccumulate (tickBlink s) with
  | raised u => exact .inr ⟨u, rfl, by rw [tick, h]; rfl⟩
  | completed u =>
    refine .inl ⟨u, rfl, ?_⟩
    rcases evalAlarm_cases u with ⟨hc, ha, he⟩ | ⟨hc, he⟩ | ⟨hc, ha, he⟩
    · exact .inl ⟨hc, ha, by rw [tick, h, completed_andThen, he]; rfl⟩
    · exact .inr (.inl ⟨hc, by rw [tick, h, completed_andThen, he]; rfl⟩)
    · exact .inr (.inr ⟨hc, ha, by rw [tick, h, completed_andThen, he]; rfl⟩)

/-- Step 2 of TICK: the accumulator counts, or starts again with the clock advanced, or the clock is invalid. -/
theorem tickAccumulate_cases (s : State) :
    (s.tickAcc.toNat + 1 < s.params.ticksPerMinute.toNat
        ∧ tickAccumulate s = .completed (setTickAcc (s.tickAcc + 1) s))
      ∨ (s.params.ticksPerMinute.toNat ≤ s.tickAcc.toNat + 1 ∧ s.clock.valid = true
          ∧ tickAccumulate s = .completed (advanceClock (setTickAcc 0 s)))
      ∨ (s.params.ticksPerMinute.toNat ≤ s.tickAcc.toNat + 1 ∧ s.clock.valid = false
          ∧ tickAccumulate s = .raised (recordFault .clock .minuteIncr (setTickAcc 0 s))) := by
  by_cases h : s.params.ticksPerMinute.toNat ≤ s.tickAcc.toNat + 1
  · have he : tickEndsMinute s = true := decide_eq_true h
    rcases minuteIncr_cases (setTickAcc 0 s) with ⟨hv, hm⟩ | ⟨hv, hm⟩
    · exact .inr (.inl ⟨h, hv, by rw [tickAccumulate, if_pos he, hm]⟩)
    · exact .inr (.inr ⟨h, hv, by rw [tickAccumulate, if_pos he, hm]⟩)
  · exact .inl ⟨by omega, by rw [tickAccumulate, if_neg (by simpa [tickEndsMinute] using h)]⟩

/-- The state DISPATCH leaves: no accepted code, a silenced alarm, or the button's function after the reload. -/
theorem dispatch_cases (s : State) :
    (s.stable = .none ∧ dispatch s = .completed (setPhase 9 s))
      ∨ (s.stable ≠ .none ∧ alarmActive s = true
          ∧ dispatch s = .completed (setPhase 9 (silence (reloadCountdown s))))
      ∨ (s.stable ≠ .none ∧ alarmActive s = false
          ∧ dispatch s
              = (pressFunction (buttonFunction s.params.buttonMap (slotOf s.stable)) (reloadCountdown s)).andThen
                  fun u => .completed (setPhase 9 u)) := by
  by_cases hs : s.stable = .none
  · exact .inl ⟨hs, by rw [dispatch, acceptPress, if_pos hs]; rfl⟩
  · cases ha : alarmActive s
    · exact .inr (.inr ⟨hs, rfl, by
        rw [dispatch, acceptPress, if_neg hs, pressEffect, alarmActive_reloadCountdown, ha]; rfl⟩)
    · exact .inr (.inl ⟨hs, rfl, by
        rw [dispatch, acceptPress, if_neg hs, pressEffect, alarmActive_reloadCountdown, ha]; rfl⟩)

/-- What a button's function does: nothing, a toggle of Setting, a step of the target, or a raise on an invalid target. -/
theorem pressFunction_cases (b : ButtonFunction) (s : State) :
    (pressFunction b s = .completed s ∧ (b = .nofunc ∨ (b = .mode ∧ s.edge = false)))
      ∨ (pressFunction b s = .completed (toggleSetting s) ∧ b = .mode ∧ s.edge = true)
      ∨ (∃ f, pressFunction b s = setIncr (target s) f s ∧ ((b = .slow ∧ f = .slow) ∨ (b = .fast ∧ f = .fast))) := by
  cases b
  · cases he : s.edge
    · exact .inl ⟨by rw [pressFunction, modePress, he]; rfl, .inr ⟨rfl, rfl⟩⟩
    · exact .inr (.inl ⟨by rw [pressFunction, modePress, he]; rfl, rfl, rfl⟩)
  · exact .inr (.inr ⟨.slow, rfl, .inl ⟨rfl, rfl⟩⟩)
  · exact .inr (.inr ⟨.fast, rfl, .inr ⟨rfl, rfl⟩⟩)
  · exact .inl ⟨rfl, .inl rfl⟩

end Sys2Proof.Machine
end

