-- ==== Sys2Proof/Laws/PerInstr.lean ====
section
/-! SUPPORT. A family of statements about each operation as syntax: its word stands in the row of spec/opcode_table.json
its mnemonic names. -/

namespace Sys2Proof.Laws.WordStandsInItsRow

/-- The pattern and the mask of an operation's row (30_encoding.md R59, columns match and mask). -/
def rowOf : Instr → Word × Word
  | .reset => (0x00, 0xFF)
  | .tick => (0x10, 0xFF)
  | .wakeEdge => (0x20, 0xFF)
  | .wakeIsr => (0x21, 0xFF)
  | .strobe _ => (0x30, 0xFC)
  | .sweepEnd => (0x40, 0xFF)
  | .debounce => (0x50, 0xFF)
  | .dispatch => (0x60, 0xFF)
  | .autoOff => (0x70, 0xFF)
  | .alarmService => (0x80, 0xFF)
  | .idleCheck => (0x90, 0xFF)
  | .minuteIncr => (0xA0, 0xFF)
  | .setIncr _ _ => (0xB0, 0xFC)
  | .evalAlarm => (0xC0, 0xFF)

/-- The word of an operation has its row's bits under its row's mask. -/
def Statement (i : Instr) : Prop := encode i &&& (rowOf i).2 = (rowOf i).1

theorem reset : Statement .reset := rfl
theorem tick : Statement .tick := rfl
theorem wakeEdge : Statement .wakeEdge := rfl
theorem wakeIsr : Statement .wakeIsr := rfl
theorem strobe (i : Position) : Statement (.strobe i) := by
  unfold Statement
  revert i
  decide
theorem sweepEnd : Statement .sweepEnd := rfl
theorem debounce : Statement .debounce := rfl
theorem dispatch : Statement .dispatch := rfl
theorem autoOff : Statement .autoOff := rfl
theorem alarmService : Statement .alarmService := rfl
theorem idleCheck : Statement .idleCheck := rfl
theorem minuteIncr : Statement .minuteIncr := rfl
theorem setIncr (t : Target) (f : Rate) : Statement (.setIncr t f) := by cases t <;> cases f <;> rfl
theorem evalAlarm : Statement .evalAlarm := rfl

end Sys2Proof.Laws.WordStandsInItsRow
end

