-- ==== Sys2Proof/Laws/Step.lean ====
section
/-! SUPPORT. What a step can do, said once: which operation it performs, and in which state. -/

namespace Sys2Proof.Machine

/-- The state an operation is performed in differs from the step's only in what has been scheduled and drawn. -/
def performedFrom (s u : State) : Prop :=
  u = { s with schedule := s.schedule.tail, draws := u.draws, isolated := false }

/-- If the fetch answers an operation, it is the decoded word at the head of the schedule, performable there, or an
enabled operation a free value chose. -/
theorem fetch_perform_cases {s u : State} {i : Instr} (h : fetch s = .perform i u) :
    (∃ w rest, s.schedule = w :: rest ∧ decode w = .operation i
        ∧ (i.performedInRun = true ∨ s.isolated = true) ∧ u = { s with schedule := rest, isolated := false })
      ∨ (s.schedule = [] ∧ s.fault = none ∧ i = chosenOperation (Config.freeChoice s.draws) s
          ∧ u = { s with draws := s.draws + 1, isolated := false }) := by
  unfold fetch at h
  split at h
  next w rest hs =>
    unfold fetchWord at h
    split at h
    · cases h
    next j hd =>
      split at h
      next hp =>
        cases h
        exact .inl ⟨w, rest, hs, hd, by simpa using hp, rfl⟩
      · cases h
  next hs =>
    unfold fetchFree at h
    split at h
    · cases h
    next hf =>
      cases h
      exact .inr ⟨hs, hf, rfl, rfl⟩

/-- If a step answers a next state, it performed the operation the fetch answered. -/
theorem step_next_cases {s t : State} (h : step s = .next t) :
    ∃ i u, fetch s = .perform i u ∧ exec i u = .next t := by
  unfold step at h
  split at h
  next i u hf => exact ⟨i, u, hf, h⟩
  · cases h
  · cases h

/-- The state an operation is performed in: every register, and everything of the model's but the schedule, the count of
draws and the isolation, is the step's. -/
theorem performedFrom_of_fetch {s u : State} {i : Instr} (h : fetch s = .perform i u) : performedFrom s u := by
  rcases fetch_perform_cases h with ⟨w, rest, hs, -, -, rfl⟩ | ⟨hs, -, -, rfl⟩ <;> simp [performedFrom, hs]

/-! ### Runs -/

/-- A run of no steps. -/
@[simp] theorem run_zero (s : State) : Host.Core.run Sys2Proof.core 0 s = .next s := rfl

/-- Of any machine: a run whose first step answers a next state goes on from that state. -/
theorem core_run_succ (M : Host.Core) {s t : M.State} (k : Nat) (h : M.step s = .next t) :
    M.run (k + 1) s = M.run k t := by
  rw [Host.Core.run, h]

/-- Of any machine: if a run answers a next state, so did its first step, and the rest of the run. -/
theorem core_run_succ_cases (M : Host.Core) {s t : M.State} {k : Nat} (h : M.run (k + 1) s = .next t) :
    ∃ u, M.step s = .next u ∧ M.run k u = .next t := by
  rw [Host.Core.run] at h
  split at h
  next u hu => exact ⟨u, hu, h⟩
  · cases h
  · cases h

/-- A run whose first step answers a next state goes on from that state. -/
theorem run_succ_of_next {s t : State} (k : Nat) (h : step s = .next t) :
    Host.Core.run Sys2Proof.core (k + 1) s = Host.Core.run Sys2Proof.core k t :=
  core_run_succ Sys2Proof.core k h

/-- If a run answers a next state, so did its first step, and the rest of the run. -/
theorem run_succ_next_cases {s t : State} {k : Nat} (h : Host.Core.run Sys2Proof.core (k + 1) s = .next t) :
    ∃ u : State, step s = .next u ∧ Host.Core.run Sys2Proof.core k u = .next t :=
  core_run_succ_cases Sys2Proof.core h

/-- A scheduled word of a run performs its operation. -/
theorem step_of_scheduled {s : State} {w : Word} {rest : List Word} {i : Instr} (hs : s.schedule = w :: rest)
    (hd : decode w = .operation i) (hp : i.performedInRun = true) :
    step s = exec i { s with schedule := rest, isolated := false } := by
  simp only [step, fetch, hs, fetchWord, hd, hp, Bool.true_or, if_true]

end Sys2Proof.Machine
end

