-- ==== Sys2Proof/Tests/Slice0.lean ====
section
/-! SUPPORT. Tests: the words of the operation-word map, the checks of WellFormed, one step of each operation against the
vectors of spec/95_test_vectors.md (whose ids stand in the comments), and a witness for the hypotheses of each statement. -/

namespace Sys2Proof.Tests

open Sys2Proof Sys2Proof.Machine

/-! ### Helpers -/

/-- Parameters with the example K of 95_test_vectors.md section 0. -/
def params : Params := { Config.params with slowDivisor := 3 }

/-- Base state R of 95_test_vectors.md section 0. -/
def R : State := { State.reset with params := params }

/-- Base state W of 95_test_vectors.md section 0: awake and disarmed. -/
def W : State := { R with asleep := false, wakeIE := false, countdown := 21 }

/-- W at a phase. -/
def at_ (p : BitVec 4) : State := { W with phase := p }

/-- A digit set in the order of the spec's lists. -/
def ds (a b c d : Digit) : DigitSet := { minuteUnits := a, minuteTens := b, hourUnits := c, hourTens := d }

/-- Whether the operation answers a next state of which `p` holds. -/
def after (i : Instr) (s : State) (p : State → Bool) : Bool :=
  match exec i s with
  | .next t => p t
  | .fault _ => false
  | .refused _ => false

/-- Whether the outcome is the refusal `r`. -/
def refusedBy (r : Refusal) : Host.Outcome State Fault Refusal → Bool
  | .next _ => false
  | .fault _ => false
  | .refused q => decide (q = r)

/-- Whether the outcome is a next state. -/
def goesOn : Host.Outcome State Fault Refusal → Bool
  | .next _ => true
  | .fault _ => false
  | .refused _ => false

/-! ### Decoding: every word written out from 30_encoding.md R59 and R60 -/

theorem test_decode_reset : decode 0b00000000 = .operation .reset := by decide
theorem test_decode_tick : decode 0b00010000 = .operation .tick := by decide
theorem test_decode_wakeEdge : decode 0b00100000 = .operation .wakeEdge := by decide
theorem test_decode_wakeIsr : decode 0b00100001 = .operation .wakeIsr := by decide
theorem test_decode_strobe :
    decode 0b00110000 = .operation (.strobe 0) ∧ decode 0b00110001 = .operation (.strobe 1)
      ∧ decode 0b00110010 = .operation (.strobe 2) ∧ decode 0b00110011 = .operation (.strobe 3) := by decide
theorem test_decode_sweepEnd : decode 0b01000000 = .operation .sweepEnd := by decide
theorem test_decode_debounce : decode 0b01010000 = .operation .debounce := by decide
theorem test_decode_dispatch : decode 0b01100000 = .operation .dispatch := by decide
theorem test_decode_autoOff : decode 0b01110000 = .operation .autoOff := by decide
theorem test_decode_alarmService : decode 0b10000000 = .operation .alarmService := by decide
theorem test_decode_idleCheck : decode 0b10010000 = .operation .idleCheck := by decide
theorem test_decode_minuteIncr : decode 0b10100000 = .operation .minuteIncr := by decide
/-- DC2. -/
theorem test_decode_setIncr :
    decode 0b10110000 = .operation (.setIncr .clock .slow) ∧ decode 0b10110001 = .operation (.setIncr .alarm .slow)
      ∧ decode 0b10110010 = .operation (.setIncr .clock .fast)
      ∧ decode 0b10110011 = .operation (.setIncr .alarm .fast) := by decide
theorem test_decode_evalAlarm : decode 0b11000000 = .operation .evalAlarm := by decide

/-- DC3. -/
theorem test_decode_invalid :
    decode 0x01 = .invalid 0x01 ∧ decode 0x22 = .invalid 0x22 ∧ decode 0x34 = .invalid 0x34
      ∧ decode 0x41 = .invalid 0x41 ∧ decode 0xB4 = .invalid 0xB4 ∧ decode 0xC1 = .invalid 0xC1
      ∧ decode 0xFF = .invalid 0xFF := by decide

/-- Exactly 20 words name an operation (30_encoding.md R59). -/
theorem test_twenty_words :
    ((List.range 256).filter fun w => (decodeTableWord 8 w).isSome).length = 20 := by decide

/-- Every operation runs first after reset, placed by its table word (log 2). -/
theorem test_every_word_runs_first :
    (allOperations.all fun i => goesOn (step (State.reset.withFetchWord 8 (encode i).toNat))) = true := by decide

/-! ### WellFormed: each check refuses an ill-formed term -/

theorem test_wf_default : params.wf = true := by decide
theorem test_wf_refuses_zero_ticks : ({ params with ticksPerMinute := 0 } : Params).wf = false := by decide
theorem test_wf_refuses_zero_auto_off : ({ params with autoOffTicks := 0 } : Params).wf = false := by decide
theorem test_wf_refuses_zero_divisor : ({ params with slowDivisor := 0 } : Params).wf = false := by decide
theorem test_wf_refuses_sub_operations :
    Instr.minuteIncr.performedInRun = false ∧ (Instr.setIncr .clock .slow).performedInRun = false
      ∧ Instr.evalAlarm.performedInRun = false := by decide

/-! ### One step of each operation, against the spec's vectors -/

/-- RS1, L1-9. -/
theorem test_reset :
    after .reset { W with fault := some { which := .clock, op := .strobe }, trace := [.ds 1], slowCnt := 2 }
      (fun t => decide (t = R)) = true := by decide

/-- T4: the advance comes before the comparison. -/
theorem test_tick_advances_then_compares :
    after .tick { W with tickAcc := 119, clock := ds 9 5 6 0, countdown := 0, asleep := true, idle := true }
      (fun t => decide (t = { W with
        tickAcc := 0, clock := ds 0 0 7 0, sounding := true, countdown := 0, asleep := true })) = true := by decide

/-- T9: the writes before the fault stay. -/
theorem test_tick_faults :
    after .tick { W with tickAcc := 5, clock := ds 0 0 4 2 }
      (fun t => decide (t = { W with
        tickAcc := 6, clock := ds 0 0 4 2, fault := some { which := .clock, op := .evalAlarm } })) = true := by decide

/-- WE1 and WE2. -/
theorem test_wakeEdge :
    after .wakeEdge R (fun t => decide (t = { R with wakeFlag := true })) = true
      ∧ after .wakeEdge W (fun t => decide (t = W)) = true := by decide

/-- WI2. -/
theorem test_wakeIsr :
    after .wakeIsr { at_ 5 with wakeIE := true, wakeFlag := true, sounding := true, countdown := 3 }
      (fun t => decide (t = { at_ 5 with sounding := true, silenced := true })) = true := by decide

/-- WI3. -/
theorem test_wakeIsr_disarmed :
    refusedBy (.notEnabled .wakeIsr) (exec .wakeIsr { W with wakeFlag := true }) = true := by decide

/-- ST2, and the example of 43_display_mux.md R97, whose four digits differ (12:34, position 0 shows the 4). -/
theorem test_strobe :
    after (.strobe 1) { at_ 3 with levels := [true] }
        (fun t => decide (t = { at_ 4 with
          ds := 0b0010, sweepSig := .slot1
          trace := [.ds 0b0010, .segsel 0, .segsel 1, .segsel 2, .segsel 3, .segsel 4, .segsel 5, .segsel 7,
            .segsel 7] })) = true
      ∧ after (.strobe 0) { at_ 2 with clock := ds 4 3 2 1, levels := [false] }
          (fun t => decide (t = { at_ 3 with
            clock := ds 4 3 2 1, ds := 0b0001
            trace := [.ds 0b0001, .segsel 7, .segsel 1, .segsel 2, .segsel 7, .segsel 7, .segsel 5, .segsel 6,
              .segsel 7] })) = true := by decide

/-- ST3: the dash. -/
theorem test_strobe_dash :
    after (.strobe 2) { at_ 4 with settingAlarm := true, blinkPhase := false, levels := [false] }
      (fun t => decide (t.trace = [.ds 0b0100, .segsel 7, .segsel 7, .segsel 7, .segsel 7, .segsel 7, .segsel 7,
        .segsel 6, .segsel 7])) = true := by decide

/-- SW2. -/
theorem test_sweepEnd :
    after .sweepEnd { at_ 6 with sweepSig := .slot3, ds := 0b1000, levels := [true] }
      (fun t => decide (t = { at_ 7 with raw := .all, trace := [.ds 0] })) = true := by decide

/-- D2. -/
theorem test_debounce_accepts :
    after .debounce { at_ 7 with raw := .slot1, prev := .slot1 }
      (fun t => decide (t = { at_ 8 with
        raw := .slot1, prev := .slot1, stable := .slot1, edge := true, lastStable := .slot1 })) = true := by decide

/-- D4. -/
theorem test_debounce_sentinel :
    after .debounce { at_ 7 with raw := .all, prev := .slot1, lastStable := .slot1, edge := true }
      (fun t => decide (t = at_ 8)) = true := by decide

/-- DP8: SLOW in Setting steps the alarm at the third call. -/
theorem test_dispatch_slow :
    after .dispatch { at_ 8 with stable := .slot1, settingAlarm := true, slowCnt := 2, countdown := 1 }
      (fun t => decide (t = { at_ 9 with
        stable := .slot1, settingAlarm := true, alarm := ds 1 0 7 0 })) = true := by decide

/-- DP5: a press while the alarm sounds only silences it. -/
theorem test_dispatch_silences :
    after .dispatch { at_ 8 with stable := .slot2, edge := true, sounding := true, clock := ds 0 0 7 0 }
      (fun t => decide (t = { at_ 9 with
        stable := .slot2, edge := true, sounding := true, silenced := true, clock := ds 0 0 7 0 })) = true := by decide

/-- A5. -/
theorem test_autoOff_sleeps :
    after .autoOff { at_ 9 with countdown := 0, settingAlarm := true, blinkPhase := false }
      (fun t => decide (t = { R with countdown := 0 })) = true := by decide

/-- A3. -/
theorem test_autoOff_stays_awake :
    after .autoOff { at_ 9 with countdown := 0, sounding := true }
      (fun t => decide (t = { W with countdown := 0, sounding := true })) = true := by decide

/-- AS2. -/
theorem test_alarmService :
    after .alarmService { W with settingAlarm := true, blinkPhase := false, sounding := true }
      (fun t => decide (t = { at_ 1 with sounding := true })) = true := by decide

/-- IC1 and IC2. -/
theorem test_idleCheck :
    after .idleCheck { R with phase := 1 } (fun t => decide (t = { R with idle := true })) = true
      ∧ after .idleCheck { R with phase := 1, sounding := true }
          (fun t => decide (t = { R with sounding := true })) = true := by decide

/-- RF2: while the main loop idles, none of its operations is enabled. -/
theorem test_idleCheck_idle :
    refusedBy (.notEnabled .idleCheck) (exec .idleCheck { at_ 1 with idle := true }) = true := by decide

/-- M1. -/
theorem test_minuteIncr :
    after .minuteIncr { W with clock := ds 9 5 3 2, tickAcc := 7, sounding := true }
      (fun t => decide (t = { W with clock := ds 0 0 0 0, tickAcc := 7, sounding := true })) = true := by decide

/-- M4. -/
theorem test_minuteIncr_faults :
    after .minuteIncr { W with clock := ds 0 0 4 2 }
      (fun t => decide (t = { W with
        clock := ds 0 0 4 2, fault := some { which := .clock, op := .minuteIncr } })) = true := by decide

/-- S1 and S2. -/
theorem test_setIncr :
    after (.setIncr .clock .fast) { W with slowCnt := 2 }
        (fun t => decide (t = { W with slowCnt := 2, clock := ds 2 0 0 0 })) = true
      ∧ after (.setIncr .alarm .slow) W (fun t => decide (t = { W with slowCnt := 1 })) = true := by decide

/-- S3 and S7. -/
theorem test_setIncr_third_call_and_fault :
    after (.setIncr .alarm .slow) { W with slowCnt := 2 }
        (fun t => decide (t = { W with alarm := ds 1 0 7 0 })) = true
      ∧ after (.setIncr .alarm .fast) { W with alarm := ds 0 0 0 3 }
          (fun t => decide (t = { W with
            alarm := ds 0 0 0 3, fault := some { which := .alarm, op := .setIncr } })) = true := by decide

/-- E2 and E3. -/
theorem test_evalAlarm :
    after .evalAlarm { W with clock := ds 0 0 7 0, sounding := true, silenced := true }
        (fun t => t.sounding && t.silenced) = true
      ∧ after .evalAlarm { W with clock := ds 1 0 7 0, sounding := true, silenced := true }
          (fun t => !t.sounding && !t.silenced) = true := by decide

/-- E5: the clock is checked first. -/
theorem test_evalAlarm_faults :
    after .evalAlarm { W with clock := ds 0 0 0 3, alarm := ds 0 0 0 3 }
      (fun t => decide (t.fault = some { which := .clock, op := .evalAlarm })) = true := by decide

/-! ### The state image and the trace text -/

/-- The image of W, written out from 20_memory.md R46: FLAGS holds blinkPhase, OUT holds SEGSEL 7. -/
theorem test_image :
    image W = [0x01, 0x00, 0x00, 0x07, 0x04, 0x15, 0x00, 0x00, 0x00, 0x00, 0x00, 0x00, 0x00, 0x70, 0x00, 0x00] := by
  decide

/-- 20_memory.md R49: 23:59 is the bytes 0x59, 0x23. -/
theorem test_image_byte_order :
    (image { W with clock := ds 9 5 3 2 }).take 2 = [0x59, 0x23] := by decide

/-! ### Witnesses: a concrete state and operands that meet the hypotheses of each statement -/

theorem witness_UnlistedWordsAreInvalidAndRefused :
    ([0x01, 0x0F, 0x11, 0x1F, 0x22, 0x2F, 0x34, 0x3F, 0x41, 0x4F, 0x51, 0x5F, 0x61, 0x6F, 0x71, 0x7F, 0x81, 0x8F, 0x91,
        0x9F, 0xA1, 0xAF, 0xB4, 0xBF, 0xC1, 0xFF] : List Word).all (fun w =>
          refusedBy (.invalidWord w) (step { W with schedule := [w, 0x10] })) = true
      ∧ ([0x00, 0x10, 0x20, 0x21, 0x30, 0x33, 0x40, 0x50, 0x60, 0x70, 0x80, 0x90, 0xA0, 0xB0, 0xB3, 0xC0] :
          List Word).all (fun w => decide (decode w ≠ .invalid w)) = true := by decide

theorem witness_EncodeAndDecodeAgree : decode 0xB2 = .operation (.setIncr .clock .fast) := by decide

theorem witness_StepPerformsTheScheduledWord :
    (decode 0x10 = .operation .tick ∧ Instr.tick.performedInRun = true)
      ∧ (decode 0xA0 = .operation .minuteIncr ∧ ({ W with schedule := [0xA0], isolated := true } : State).isolated = true)
      ∧ goesOn (step { W with schedule := [0x10] }) = true
      ∧ goesOn (step { W with schedule := [0xA0], isolated := true }) = true := by decide

theorem witness_SubOperationsAreNoStepsOfARun :
    W.isolated = false ∧ refusedBy (.notInRun .minuteIncr) (step { W with schedule := [0xA0] }) = true
      ∧ refusedBy (.notInRun (.setIncr .alarm .fast)) (step { W with schedule := [0xB3] }) = true
      ∧ refusedBy (.notInRun .evalAlarm) (step { W with schedule := [0xC0] }) = true := by decide

/-- A faulted, idle, disarmed state, in which no operation but RESET is enabled before the selection. -/
theorem witness_EverySelectedWordIsPerformedNext :
    (allOperations.all fun i => goesOn (step
      (({ W with fault := some { which := .clock, op := .strobe }, idle := true, schedule := [0x10] } : State).withFetchWord
        8 (encode i).toNat))) = true := by decide

theorem witness_AnUnscheduledStepPerformsAnEnabledOperation : W.schedule = [] ∧ W.fault = none := by decide

theorem witness_MinuteOfDayIsABijection :
    (ds 0 0 0 0).valid = true ∧ minuteOfDay (ds 0 0 0 0) = 0 ∧ (ds 9 5 3 2).valid = true
      ∧ minuteOfDay (ds 9 5 3 2) = 1439 := by decide

theorem witness_BcdIncrementRunsThroughTheDay :
    (ds 9 5 3 2).valid = true ∧ bcdIncr (ds 9 5 3 2) = ds 0 0 0 0 ∧ (ds 9 5 9 1).valid = true
      ∧ bcdIncr (ds 9 5 9 1) = ds 0 0 0 2 := by decide

theorem witness_DigitCodecTable : 9 < (10 : Digit).toNat ∧ 9 < (15 : Digit).toNat := by decide

theorem witness_MinuteIncrAdvancesTheClock :
    W.fault = none ∧ W.clock.valid = true
      ∧ ({ W with clock := ds 10 0 0 0 } : State).clock.valid = false := by decide

theorem witness_SetIncrStepsItsTarget :
    W.fault = none ∧ W.clock.valid = true ∧ W.alarm.valid = true
      ∧ ({ W with slowCnt := 2 } : State).slowCnt.toNat + 1 ≥ params.slowDivisor.toNat
      ∧ ({ W with slowCnt := 1 } : State).slowCnt.toNat + 1 < params.slowDivisor.toNat
      ∧ (digitsOf { W with alarm := ds 0 0 0 3 } .alarm).valid = false
      ∧ (digitsOf { W with clock := ds 0 6 0 0 } .clock).valid = false := by decide

theorem witness_EvalAlarmComparesTheDigitSets :
    W.fault = none ∧ W.clock.valid = true ∧ W.alarm.valid = true ∧ W.clock ≠ W.alarm
      ∧ ({ W with clock := ds 0 0 7 0 } : State).clock = W.alarm ∧ (ds 0 0 0 3).valid = false
      ∧ (ds 12 0 7 0).valid = false := by decide

theorem witness_TickDoesItsFiveStepsInOrder :
    W.fault = none ∧ W.clock.valid = true ∧ W.alarm.valid = true
      ∧ ({ W with tickAcc := 119 } : State).tickAcc.toNat + 1 ≥ params.ticksPerMinute.toNat
      ∧ ¬ ({ W with tickAcc := 118 } : State).tickAcc.toNat + 1 ≥ params.ticksPerMinute.toNat := by decide

theorem witness_TickEndsAtItsFirstFailingCheck :
    W.fault = none ∧ (ds 0 0 4 2).valid = false ∧ W.clock.valid = true
      ∧ ({ W with tickAcc := 119, alarm := ds 0 0 4 2 } : State).tickAcc.toNat + 1 ≥ params.ticksPerMinute.toNat
      ∧ ¬ ({ W with tickAcc := 118, clock := ds 0 0 4 2 } : State).tickAcc.toNat + 1 ≥ params.ticksPerMinute.toNat := by
  decide

theorem witness_ClockAdvancesOneMinuteEveryNTicks :
    W.fault = none ∧ W.clock.valid = true ∧ W.alarm.valid = true
      ∧ ({ W with tickAcc := 119 } : State).tickAcc.toNat < params.ticksPerMinute.toNat := by decide

theorem witness_CountdownRunsOutAfterItsTicks :
    W.fault = none ∧ W.clock.valid = true ∧ W.alarm.valid = true
      ∧ (at_ 9).fault = none ∧ (at_ 9).idle = false ∧ (at_ 9).phase = 9 ∧ (at_ 9).asleep = false
      ∧ alarmActive (at_ 9) = false ∧ (at_ 9).countdown ≠ 0
      ∧ ({ at_ 9 with countdown := 0 } : State).countdown = 0 := by decide

theorem witness_BlinkPhaseAlternatesInSetting :
    W.fault = none ∧ W.clock.valid = true ∧ W.alarm.valid = true ∧ W.settingAlarm = false
      ∧ ({ W with settingAlarm := true } : State).settingAlarm = true := by decide

/-- N = 1: 06:58, then a mismatch after one tick and the match after two. -/
theorem witness_AlarmIsNotStickyAndLastsOneMinute :
    after .tick W (fun t => decide (t.fault = none) && decide (t.clock ≠ t.alarm)) = true
      ∧ (∃ u t : State,
          afterTicks 1 { W with params := { params with ticksPerMinute := 1 }, clock := ds 8 5 6 0 } = .next u
            ∧ u.clock ≠ u.alarm
            ∧ afterTicks 2 { W with params := { params with ticksPerMinute := 1 }, clock := ds 8 5 6 0 } = .next t
            ∧ t.clock = t.alarm)
      ∧ (({ W with tickAcc := 119, clock := ds 9 5 6 0 } : State).tickAcc.toNat + 1 = params.ticksPerMinute.toNat
          ∧ bcdIncr (ds 9 5 6 0) = W.alarm ∧ (ds 9 5 6 0).valid = true) :=
  ⟨by decide, ⟨_, _, rfl, by decide, rfl, by decide⟩, by decide⟩

theorem witness_StrobeRendersItsSlotAndSamples :
    (∀ i : Position, (at_ (BitVec.ofNat 4 (2 + i.val))).fault = none
        ∧ (at_ (BitVec.ofNat 4 (2 + i.val))).idle = false
        ∧ (at_ (BitVec.ofNat 4 (2 + i.val))).phase = BitVec.ofNat 4 (2 + i.val)
        ∧ (shown (at_ (BitVec.ofNat 4 (2 + i.val)))).valid = true)
      ∧ W.blinkPhase = true ∧ (shown { W with settingAlarm := true, blinkPhase := false }).valid = true := by decide

/-- ST7. -/
theorem witness_StrobeRaisesBeforeAnyPinWrite :
    (at_ 2).fault = none ∧ (at_ 2).idle = false ∧ (at_ 2).phase = BitVec.ofNat 4 (2 + (0 : Position).val)
      ∧ (shown { at_ 2 with settingAlarm := true, alarm := ds 0 0 0 3 }).valid = false
      ∧ (shown { at_ 2 with clock := ds 0 0 4 2 }).valid = false := by decide

theorem witness_SweepEndPublishesTheRawSignal :
    ((at_ 6).fault = none ∧ (at_ 6).idle = false ∧ (at_ 6).phase = 6)
      ∧ ¬ ((at_ 5).fault = none ∧ (at_ 5).idle = false ∧ (at_ 5).phase = 6)
      ∧ pinLevel .wake { at_ 6 with levels := [true] } = true
      ∧ pinLevel .wake { at_ 6 with levels := [false] } = false := by decide

theorem witness_ASweepPublishesTheHighestAssertedSlot :
    (at_ 2).fault = none ∧ (at_ 2).idle = false ∧ (at_ 2).phase = 2 ∧ (at_ 2).sweepSig = .none
      ∧ (shown (at_ 2)).valid = true := by decide

theorem runInvariant_R : RunInvariant R :=
  ⟨⟨by decide, by decide, by decide, by decide, by decide, by decide, by decide, by decide, by decide, by decide⟩,
    by decide, by decide, by decide, by decide⟩

theorem runInvariant_W : RunInvariant W :=
  ⟨⟨by decide, by decide, by decide, by decide, by decide, by decide, by decide, by decide, by decide, by decide⟩,
    by decide, by decide, by decide, by decide⟩

theorem runInvariant_idle : RunInvariant { R with idle := true } :=
  ⟨⟨by decide, by decide, by decide, by decide, by decide, by decide, by decide, by decide, by decide, by decide⟩,
    by decide, by decide, by decide, by decide⟩

/-- Asleep at 06:59, one tick before 07:00. -/
theorem runInvariant_beforeAlarm : RunInvariant { R with tickAcc := 119, clock := ds 9 5 6 0 } :=
  ⟨⟨by decide, by decide, by decide, by decide, by decide, by decide, by decide, by decide, by decide, by decide⟩,
    by decide, by decide, by decide, by decide⟩

/-- Asleep with the alarm sounding at 07:00. -/
theorem runInvariant_alarm : RunInvariant { R with clock := ds 0 0 7 0, sounding := true } :=
  ⟨⟨by decide, by decide, by decide, by decide, by decide, by decide, by decide, by decide, by decide, by decide⟩,
    by decide, by decide, by decide, by decide⟩

theorem witness_DisplayIsDarkWhileAsleep :
    (RunInvariant R ∧ R.asleep = true) ∧ (RunInvariant { R with idle := true }
      ∧ ({ R with idle := true } : State).idle = true) :=
  ⟨⟨runInvariant_R, by decide⟩, runInvariant_idle, by decide⟩

theorem witness_OnlyATickTearsASweep :
    2 ≤ (at_ 2).phase.toNat ∧ (at_ 6).phase.toNat ≤ 6 ∧ Instr.sweepEnd.performedInRun = true
      ∧ after (.strobe 0) { at_ 2 with levels := [false] } (fun _ => true) = true
      ∧ after .sweepEnd { at_ 6 with levels := [true] } (fun _ => true) = true
      ∧ after .wakeIsr { at_ 4 with wakeIE := true, wakeFlag := true } (fun _ => true) = true := by decide

theorem witness_AlarmServiceBringsTheDisplayToTheAlarm :
    (W.fault = none ∧ W.idle = false ∧ W.phase = 0) ∧ ¬ (W.sounding = true ∧ W.silenced = false)
      ∧ (({ W with sounding := true } : State).sounding = true ∧ W.silenced = false)
      ∧ ¬ ((at_ 1).fault = none ∧ (at_ 1).idle = false ∧ (at_ 1).phase = 0) := by decide

theorem witness_IdleCheckWaitsOnlyAsleepAndQuiet :
    ((at_ 1).fault = none ∧ (at_ 1).idle = false ∧ (at_ 1).phase = 1) ∧ (at_ 1).asleep = false
      ∧ R.asleep = true ∧ ¬ (R.sounding = true ∧ R.silenced = false)
      ∧ (({ R with phase := 1, sounding := true } : State).sounding = true ∧ R.silenced = false)
      ∧ ¬ ((at_ 2).fault = none ∧ (at_ 2).idle = false ∧ (at_ 2).phase = 1) := by decide

theorem witness_DebounceAcceptsARepeatedSample :
    ((at_ 7).fault = none ∧ (at_ 7).idle = false ∧ (at_ 7).phase = 7)
      ∧ (if ({ at_ 7 with raw := .all } : State).raw = .all then ButtonCode.none else .all) = (at_ 7).prev
      ∧ ButtonCode.slot1 ≠ (at_ 7).prev
      ∧ ¬ ((at_ 8).fault = none ∧ (at_ 8).idle = false ∧ (at_ 8).phase = 7) := by decide

theorem witness_FivePassesGiveTwoPressEdges :
    (0 : Position) ≠ 2 ∧ W.fault = none ∧ W.idle = false ∧ W.prev = .none ∧ W.lastStable = .none := by decide

/-- L1-5: the accepted codes and press edges of its five passes. -/
theorem witness_AcceptedCodesWereReadOnTwoPasses :
    W.fault = none ∧ W.idle = false ∧ W.prev = .none ∧ W.lastStable = .none
      ∧ debouncePasses [.slot0, .slot0, .slot2, .slot2, .slot2] W
          = some [(.none, false), (.slot0, true), (.none, false), (.slot2, true), (.slot2, false)] := by decide

theorem witness_DispatchActsOnTheAcceptedCode :
    ¬ ((at_ 9).fault = none ∧ (at_ 9).idle = false ∧ (at_ 9).phase = 8)
      ∧ ((at_ 8).fault = none ∧ (at_ 8).idle = false ∧ (at_ 8).phase = 8) ∧ (at_ 8).stable = .none
      ∧ ({ at_ 8 with stable := .slot2, sounding := true } : State).stable ≠ .none
      ∧ ({ at_ 8 with stable := .slot0 } : State).stable = .slot0 ∧ ({ at_ 8 with stable := .slot3 } : State).stable = .slot3
      ∧ params.buttonMap.slot0 = .mode ∧ params.buttonMap.slot1 = .slow ∧ params.buttonMap.slot2 = .fast
      ∧ params.buttonMap.slot3 = .nofunc
      ∧ after (.setIncr .clock .fast) { at_ 8 with stable := .slot2 } (fun u => decide (u.fault = none)) = true
      ∧ after (.setIncr .clock .fast) { at_ 8 with stable := .slot2, clock := ds 0 0 4 2 }
          (fun u => decide (u.fault ≠ none)) = true := by decide

/-- DP10. -/
theorem witness_AFaultingSetEndsDispatchBeforeThePhase :
    (at_ 8).fault = none ∧ (at_ 8).idle = false ∧ (at_ 8).phase = 8 ∧ ButtonCode.slot2 = slotCode 2
      ∧ ¬ ((at_ 8).sounding = true ∧ (at_ 8).silenced = false)
      ∧ (buttonFunction params.buttonMap 1 = .slow ∧ buttonFunction params.buttonMap 2 = .fast)
      ∧ (ds 0 0 4 2).valid = false := by decide

theorem witness_AutoOffEntersSleeping :
    ((at_ 9).fault = none ∧ (at_ 9).idle = false ∧ (at_ 9).phase = 9)
      ∧ ({ at_ 9 with countdown := 0 } : State).asleep = false
      ∧ ¬ ((at_ 9).sounding = true ∧ (at_ 9).silenced = false) ∧ (at_ 9).countdown ≠ 0
      ∧ ¬ ((at_ 8).fault = none ∧ (at_ 8).idle = false ∧ (at_ 8).phase = 9) := by decide

theorem witness_WakeEdgeIsNotedWhenArmedOrLatched :
    R.fault = none ∧ R.wakeIE = true ∧ W.wakeIE = false ∧ W.params.wakeLatch = false
      ∧ ({ W with params := { params with wakeLatch := true } } : State).params.wakeLatch = true
      ∧ ({ W with fault := some { which := .alarm, op := .strobe } } : State).fault ≠ none := by decide

theorem witness_WakeIsrWakesAndCancels :
    (R.fault = none ∧ R.wakeIE = true ∧ ({ R with wakeFlag := true } : State).wakeFlag = true)
      ∧ ¬ (W.fault = none ∧ W.wakeIE = true ∧ W.wakeFlag = true) := by decide

theorem witness_DisarmedWakeEdgesAreLostOrLatched :
    W.fault = none ∧ W.wakeIE = false ∧ W.params.wakeLatch = false
      ∧ ({ at_ 9 with countdown := 0, params := { params with wakeLatch := true } } : State).params.wakeLatch = true
      ∧ (at_ 9).idle = false ∧ (at_ 9).phase = 9 ∧ (at_ 9).asleep = false
      ∧ alarmActive { at_ 9 with countdown := 0 } = false := by decide

theorem witness_AnAlarmWakesASleepingDisplay :
    RunInvariant { R with tickAcc := 119, clock := ds 9 5 6 0 } ∧ R.asleep = true ∧ R.phase = 0 ∧ R.silenced = false
      ∧ ({ R with tickAcc := 119 } : State).tickAcc.toNat + 1 ≥ R.params.ticksPerMinute.toNat
      ∧ bcdIncr (ds 9 5 6 0) = R.alarm :=
  ⟨runInvariant_beforeAlarm, by decide, by decide, by decide, by decide, by decide⟩

/-- Each row of the phase table at the phase it names, and the two directions of IDLE_CHECK. -/
theorem witness_PhaseNamesTheMainLoopOperation :
    after .alarmService W (fun t => decide (t.phase = 1)) = true
      ∧ after (.strobe 0) (at_ 2) (fun t => decide (t.phase = 3)) = true
      ∧ after (.strobe 3) (at_ 5) (fun t => decide (t.phase = 6)) = true
      ∧ after .sweepEnd (at_ 6) (fun t => decide (t.phase = 7)) = true
      ∧ after .debounce (at_ 7) (fun t => decide (t.phase = 8)) = true
      ∧ after .dispatch (at_ 8) (fun t => decide (t.phase = 9)) = true
      ∧ after .autoOff (at_ 9) (fun t => decide (t.phase = 0)) = true
      ∧ after .idleCheck (at_ 1) (fun t => decide (t.phase = 2)) = true
      ∧ after .idleCheck { R with phase := 1 } (fun t => decide (t.phase = 0)) = true
      ∧ after .tick (at_ 5) (fun t => decide (t.phase = 5)) = true := by decide

/-- A state with a recorded fault, and the RESET that a step out of it performs. -/
theorem witness_AFaultIsFinalWithinARun :
    ({ W with fault := some { which := .clock, op := .strobe } } : State).fault = some { which := .clock, op := .strobe }
      ∧ goesOn (step { W with fault := some { which := .clock, op := .strobe }, schedule := [0x00] }) = true
      ∧ goesOn (step { W with fault := some { which := .clock, op := .strobe }, schedule := [0x10] }) = false
      ∧ goesOn (step { W with fault := some { which := .clock, op := .strobe } }) = false := by decide

theorem witness_OnlyAnInvalidDigitSetRaises :
    after .tick { W with clock := ds 0 0 4 2, tickAcc := 119 }
        (fun t => decide (t.fault = some { which := .clock, op := .minuteIncr })) = true
      ∧ after .tick { W with alarm := ds 0 0 4 2 }
          (fun t => decide (t.fault = some { which := .alarm, op := .evalAlarm })) = true
      ∧ after .dispatch { at_ 8 with stable := .slot2, clock := ds 0 0 4 2 }
          (fun t => decide (t.fault = some { which := .clock, op := .setIncr })) = true
      ∧ after (.strobe 1) { at_ 3 with clock := ds 0 0 4 2 }
          (fun t => decide (t.fault = some { which := .clock, op := .strobe })) = true
      ∧ after .minuteIncr { W with clock := ds 0 6 0 0 }
          (fun t => decide (t.fault = some { which := .clock, op := .minuteIncr })) = true
      ∧ after (.setIncr .alarm .slow) { W with alarm := ds 0 0 0 3 }
          (fun t => decide (t.fault = some { which := .alarm, op := .setIncr })) = true
      ∧ after .evalAlarm { W with alarm := ds 12 0 7 0 }
          (fun t => decide (t.fault = some { which := .alarm, op := .evalAlarm })) = true := by decide

theorem witness_InterruptsLeaveTheMainLoopAlone :
    after .tick (at_ 4) (fun _ => true) = true
      ∧ after .wakeIsr { at_ 4 with wakeIE := true, wakeFlag := true } (fun _ => true) = true := by decide

/-- IO1, IO2: both interrupt operations and ALARM_SERVICE enabled. -/
theorem witness_InterruptOrderDecidesTheCountdown :
    R.fault = none ∧ R.wakeIE = true ∧ ({ R with wakeFlag := true } : State).wakeFlag = true ∧ R.clock.valid = true
      ∧ R.alarm.valid = true ∧ R.params.autoOffTicks ≠ 0 ∧ R.idle = false ∧ R.phase.toNat ≤ 9 := by decide

/-- The antecedents of the clauses, each by an operation that does change the field. -/
theorem witness_FlagsChangeOnlyInTheirWriters :
    after .tick { W with clock := ds 0 0 7 0 } (fun t => t.sounding) = true
      ∧ after .dispatch { at_ 8 with stable := .slot1, sounding := true } (fun t => t.silenced) = true
      ∧ after .evalAlarm { W with silenced := true } (fun t => !t.silenced) = true
      ∧ after .tick { W with settingAlarm := true } (fun t => !t.blinkPhase) = true
      ∧ after .autoOff { at_ 9 with countdown := 0 } (fun t => t.asleep && t.wakeIE) = true
      ∧ after .alarmService { R with sounding := true } (fun t => !t.asleep) = true
      ∧ after .dispatch { at_ 8 with stable := .slot0, edge := true }
          (fun t => t.settingAlarm && decide (t.phase ≠ 8)) = true
      ∧ after .wakeIsr { R with wakeFlag := true, idle := true }
          (fun t => !t.wakeIE && !t.wakeFlag && !t.idle && decide (t.countdown ≠ R.countdown)) = true
      ∧ after .wakeEdge R (fun t => t.wakeFlag) = true
      ∧ after .idleCheck { R with phase := 1 } (fun t => t.idle) = true
      ∧ after .debounce { at_ 7 with raw := .slot1, prev := .slot1 } (fun t => t.edge) = true
      ∧ after .tick W (fun t => decide (t.tickAcc ≠ W.tickAcc)) = true
      ∧ after (.setIncr .alarm .slow) W (fun t => decide (t.slowCnt ≠ W.slowCnt)) = true
      ∧ after .dispatch { at_ 8 with stable := .slot1 } (fun t => decide (t.slowCnt ≠ W.slowCnt)) = true := by decide

theorem witness_RegistersChangeOnlyInTheirWriters :
    after .minuteIncr W (fun t => decide (t.clock ≠ W.clock)) = true
      ∧ after .dispatch { at_ 8 with stable := .slot2, settingAlarm := true }
          (fun t => decide (t.alarm ≠ W.alarm)) = true
      ∧ after (.setIncr .clock .slow) W (fun t => decide (t.slowCnt ≠ W.slowCnt)) = true
      ∧ after .debounce { at_ 7 with raw := .all } (fun t => decide (t.raw = .none)) = true
      ∧ after (.strobe 0) { at_ 2 with levels := [true] }
          (fun t => decide (t.sweepSig ≠ .none) && decide (t.ds ≠ W.ds) && decide (t.trace ≠ W.trace)) = true
      ∧ after .debounce { at_ 7 with raw := .slot1 } (fun t => decide (t.prev ≠ W.prev)) = true := by decide

theorem witness_SleepingIsEnteredAndLeftAsNamed :
    after .wakeIsr { R with wakeFlag := true } (fun t => R.asleep && !t.asleep) = true
      ∧ after .alarmService { R with sounding := true } (fun t => R.asleep && !t.asleep) = true
      ∧ after .autoOff { at_ 9 with countdown := 0 } (fun t => !W.asleep && t.asleep) = true := by decide

theorem witness_PinsReachOnlyStrobeAndSweepEnd :
    (∀ p : Position, Instr.tick ≠ .strobe p) ∧ Instr.tick ≠ .sweepEnd ∧ goesOn (exec .tick W) = true := by decide

/-- A step that adds the most events, and the RESET that empties the trace. -/
theorem witness_StepsKeepParametersAndExtendTheTrace :
    goesOn (step { at_ 2 with schedule := [0x30, 0x10] }) = true
      ∧ goesOn (step { W with schedule := [0x00], trace := [.ds 1] }) = true := by decide

theorem witness_RunInvariantHoldsAtReset : params.wf = true := by decide

theorem witness_EveryStepKeepsTheRunInvariant :
    RunInvariant { R with tickAcc := 119, clock := ds 9 5 6 0 }
      ∧ ∃ t : State, step { R with tickAcc := 119, clock := ds 9 5 6 0, schedule := [0x10] } = .next t :=
  ⟨runInvariant_beforeAlarm, _, rfl⟩

/-- RS2: RESET, ALARM_SERVICE, IDLE_CHECK end in the idle wait. -/
theorem witness_EveryReachedStateMeetsTheTenClauses :
    params.wf = true ∧ ∃ t : State,
      Host.Core.run Sys2Proof.core 3 { State.reset with params := params, schedule := [0x00, 0x80, 0x90], levels := [] }
        = .next t ∧ t.idle = true :=
  ⟨by decide, _, rfl, by decide⟩

theorem witness_APassComesBackToItsStart :
    (RunInvariant W ∧ W.phase = 0 ∧ W.idle = false ∧ W.asleep = false)
      ∧ (RunInvariant { R with clock := ds 0 0 7 0, sounding := true } ∧ R.phase = 0 ∧ R.idle = false
          ∧ R.asleep = true ∧ alarmActive { R with clock := ds 0 0 7 0, sounding := true } = true)
      ∧ (RunInvariant R ∧ R.phase = 0 ∧ R.idle = false ∧ R.asleep = true ∧ alarmActive R = false) :=
  ⟨⟨runInvariant_W, by decide, by decide, by decide⟩,
    ⟨runInvariant_alarm, by decide, by decide, by decide, by decide⟩,
    runInvariant_R, by decide, by decide, by decide, by decide⟩

theorem witness_StateImageReadsBack :
    (at_ 9).phase.toNat ≤ 9
      ∧ ofImage .strobe W (image { at_ 9 with fault := some { which := .alarm, op := .strobe } })
          = some { at_ 9 with fault := some { which := .alarm, op := .strobe } } := by decide

/-- A reserved button code in each of the five fields, phase 10, FAULT byte 3; and an image of a state. -/
theorem witness_ImagesOfNoStateAreRefused :
    ofImage .strobe W [1, 0, 0, 7, 4, 0x15, 0, 0, 0, 0x05, 0, 0, 0, 0x70, 0, 0] = none
      ∧ ofImage .strobe W [1, 0, 0, 7, 4, 0x15, 0, 0, 0, 0x30, 0, 0, 0, 0x70, 0, 0] = none
      ∧ ofImage .strobe W [1, 0, 0, 7, 4, 0x15, 0, 0, 0, 0, 0x06, 0, 0, 0x70, 0, 0] = none
      ∧ ofImage .strobe W [1, 0, 0, 7, 4, 0x15, 0, 0, 0, 0, 0x28, 0, 0, 0x70, 0, 0] = none
      ∧ ofImage .strobe W [1, 0, 0, 7, 4, 0x15, 0, 0, 0, 0, 0, 0x05, 0, 0x70, 0, 0] = none
      ∧ ofImage .strobe W [1, 0, 0, 7, 4, 0x15, 0, 0, 0, 0, 0, 0, 0x0A, 0x70, 0, 0] = none
      ∧ ofImage .strobe W [1, 0, 0, 7, 4, 0x15, 0, 0, 0, 0, 0, 0, 0, 0x70, 3, 0] = none
      ∧ ofImage .strobe W [1, 0, 0, 7, 4, 0x15, 0, 0, 0, 0, 0, 0, 0, 0x70, 0, 0] = some W := by decide

/-- PositionsNumberElementsLinesAndButtons: each of its cases on the mode has a state. -/
theorem witness_PositionsNumberElementsLinesAndButtons :
    ({ W with settingAlarm := true } : State).settingAlarm = true ∧ W.settingAlarm = false := by decide

end Sys2Proof.Tests
end

/-! PROOFS. The statements of 30_encoding.md: which words belong to a row of the operation-word map, what the decoder
answers for them, and what a step does with a word of no row. -/

namespace Sys2Proof.Machine

open Sys2Proof

/-! ### The words of a row -/

/-- A row without operands has one word. -/
theorem matchesWord_fullMask_iff (p w : Word) (op : Word → Instr) :
    ({ pattern := p, mask := 0xFF, operation := op } : OpcodeRow).matchesWord w = true ↔ w = p := by
  have hmask : w &&& 0xFF = w := BitVec.and_allOnes
  simp only [OpcodeRow.matchesWord, hmask, beq_iff_eq]

/-- A word under the mask 0xFC is the word with its two operand bits cleared. -/
theorem toNat_and_operandMask (w : Word) : (w &&& 0xFC).toNat = w.toNat / 4 * 4 := by
  have hshift : w &&& (0xFC : Word) = (w >>> 2) <<< 2 := by
    rw [BitVec.shiftLeft_ushiftRight]
    rfl
  have hw := w.isLt
  rw [hshift, BitVec.toNat_shiftLeft, BitVec.toNat_ushiftRight, Nat.shiftLeft_eq, Nat.shiftRight_eq_div_pow]
  omega

/-- A row with two operand bits has the four words from its pattern on. -/
theorem matchesWord_operandMask_iff (p w : Word) (op : Word → Instr) (hp : p.toNat % 4 = 0) :
    ({ pattern := p, mask := 0xFC, operation := op } : OpcodeRow).matchesWord w = true
      ↔ p.toNat ≤ w.toNat ∧ w.toNat ≤ p.toNat + 3 := by
  simp only [OpcodeRow.matchesWord, beq_iff_eq, BitVec.toNat_eq, toNat_and_operandMask]
  omega

/-! ### Operation words -/

/-- A word that belongs to some row of the operation-word map (30_encoding.md R59). -/
def IsOperationWord (w : Word) : Prop := ∃ r ∈ opcodeRows, r.matchesWord w = true

/-- The words of the map, in the order of its rows. -/
theorem isOperationWord_iff (w : Word) :
    IsOperationWord w ↔
      w = 0x00 ∨ w = 0x10 ∨ w = 0x20 ∨ w = 0x21 ∨ (0x30 ≤ w.toNat ∧ w.toNat ≤ 0x33) ∨ w = 0x40 ∨ w = 0x50 ∨ w = 0x60
        ∨ w = 0x70 ∨ w = 0x80 ∨ w = 0x90 ∨ w = 0xA0 ∨ (0xB0 ≤ w.toNat ∧ w.toNat ≤ 0xB3) ∨ w = 0xC0 := by
  have hstrobe := matchesWord_operandMask_iff 0x30 w (fun w => .strobe (positionField w)) (by decide)
  have hsetIncr := matchesWord_operandMask_iff 0xB0 w (fun w => .setIncr (targetField w) (rateField w)) (by decide)
  simp only [IsOperationWord, opcodeRows, List.exists_mem_cons_iff, matchesWord_fullMask_iff, hstrobe, hsetIncr,
    List.not_mem_nil, false_and, exists_false, or_false]
  rfl

/-! ### The decoder and the step -/

/-- A word of some row names an operation. -/
theorem decode_of_isOperationWord {w : Word} (h : IsOperationWord w) : ∃ i : Instr, decode w = .operation i := by
  obtain ⟨r, hr⟩ := Option.isSome_iff_exists.mp (List.find?_isSome.mpr h)
  exact ⟨r.operation w, by simp only [decode, hr]⟩

/-- A word of no row names none. -/
theorem decode_of_not_isOperationWord {w : Word} (h : ¬ IsOperationWord w) : decode w = .invalid w := by
  have hnone : opcodeRows.find? (fun r => r.matchesWord w) = none :=
    List.find?_eq_none.mpr fun r hr hm => h ⟨r, hr, hm⟩
  simp only [decode, hnone]

/-- A scheduled word the decoder calls invalid is refused, in every state. -/
theorem step_of_invalid {s : State} {w : Word} {rest : List Word} (hs : s.schedule = w :: rest)
    (hd : decode w = .invalid w) : step s = .refused (.invalidWord w) := by
  simp only [step, fetch, hs, fetchWord, hd]

/-- Settles O2: the listed ranges are exactly the words that belong to no row of the map. -/
theorem unlistedWordsAreInvalidAndRefused : Obligations.UnlistedWordsAreInvalidAndRefused := by
  intro w listed
  have hlisted : listed ↔ ¬ IsOperationWord w := by
    simp only [listed, isOperationWord_iff]
    bv_omega
  constructor
  · intro h
    have hd := decode_of_not_isOperationWord (hlisted.mp h)
    exact ⟨hd, fun s rest hs => step_of_invalid hs hd⟩
  · intro h
    exact decode_of_isOperationWord (not_not.mp (mt hlisted.mpr h))

end Sys2Proof.Machine

/-! PROOFS. The statements of 41_clock_alarm.md: what MINUTE_INCR, SET_INCR and EVAL_ALARM leave, on valid digit sets and
on invalid ones. -/

namespace Sys2Proof.Machine

open Sys2Proof

/-! ### The three operations from a state without a fault -/

theorem exec_minuteIncr {s : State} (hf : s.fault = none) : exec .minuteIncr s = .next (minuteIncr s).state :=
  exec_of_enabled ((noFault_iff s).2 hf)

theorem exec_setIncr {s : State} (t : Target) (f : Rate) (hf : s.fault = none) :
    exec (.setIncr t f) s = .next (setIncr t f s).state :=
  exec_of_enabled ((noFault_iff s).2 hf)

theorem exec_evalAlarm {s : State} (hf : s.fault = none) : exec .evalAlarm s = .next (evalAlarm s).state :=
  exec_of_enabled ((noFault_iff s).2 hf)

/-! ### MINUTE_INCR -/

theorem minuteIncr_of_valid {s : State} (hc : s.clock.valid = true) : minuteIncr s = .completed (advanceClock s) := by
  simpa [hc] using minuteIncr_cases s

theorem minuteIncr_of_invalid {s : State} (hc : s.clock.valid = false) :
    minuteIncr s = .raised (recordFault .clock .minuteIncr s) := by
  simpa [hc] using minuteIncr_cases s

/-- Settles O13: the check of the clock decides between the advance and the fault record. -/
theorem minuteIncrAdvancesTheClock : Obligations.MinuteIncrAdvancesTheClock := by
  refine ⟨rfl, fun s => ⟨fun hf hc => ?_, fun hf hc => ?_⟩⟩
  · rw [exec_minuteIncr hf, minuteIncr_of_valid hc]
    rfl
  · rw [exec_minuteIncr hf, minuteIncr_of_invalid hc]
    rfl

/-! ### SET_INCR: its operand bits, its sub-counter, its target -/

/-- The operand `t` is bit 0 of the word, the operand `f` bit 1 (30_encoding.md R60). -/
theorem encode_setIncr (t : Target) (f : Rate) :
    encode (.setIncr t f) = 0xB0 ||| ((if f = .fast then 1 else 0) <<< 1) ||| (if t = .alarm then 1 else 0) :=
  match t, f with
  | .clock, .slow => rfl
  | .clock, .fast => rfl
  | .alarm, .slow => rfl
  | .alarm, .fast => rfl

/-- A fast call does not count. -/
@[simp] theorem countSet_fast (s : State) : countSet .fast s = s := rfl

/-- The K-th slow call starts the count again. -/
theorem countSet_slow_of_due {s : State} (hk : s.params.slowDivisor.toNat ≤ s.slowCnt.toNat + 1) :
    countSet .slow s = { s with slowCnt := 0 } := by
  rw [countSet, slowCntAfterSet, if_pos hk]

/-- A slow call before the K-th counts. -/
theorem countSet_slow_of_not_due {s : State} (hk : s.slowCnt.toNat + 1 < s.params.slowDivisor.toNat) :
    countSet .slow s = { s with slowCnt := s.slowCnt + 1 } := by
  rw [countSet, slowCntAfterSet, if_neg (Nat.not_le.mpr hk)]

/-- A fast call steps its target. -/
@[simp] theorem digitsAfterSet_fast (t : Target) (s : State) : digitsAfterSet t .fast s = bcdIncr (digitsOf s t) := rfl

/-- The K-th slow call steps its target. -/
theorem digitsAfterSet_slow_of_due {s : State} (t : Target)
    (hk : s.params.slowDivisor.toNat ≤ s.slowCnt.toNat + 1) :
    digitsAfterSet t .slow s = bcdIncr (digitsOf s t) := by
  rw [digitsAfterSet, setAdvances, if_pos (decide_eq_true hk)]

/-- A slow call before the K-th keeps its target. -/
theorem digitsAfterSet_slow_of_not_due {s : State} (t : Target)
    (hk : s.slowCnt.toNat + 1 < s.params.slowDivisor.toNat) :
    digitsAfterSet t .slow s = digitsOf s t := by
  rw [digitsAfterSet, setAdvances, decide_eq_false (Nat.not_le.mpr hk)]
  rfl

theorem setIncr_of_valid {t : Target} {s : State} (f : Rate) (hv : (digitsOf s t).valid = true) :
    setIncr t f s = .completed (writeDigits t (digitsAfterSet t f s) (countSet f s)) := by
  simpa [hv] using setIncr_cases t f s

theorem setIncr_of_invalid {t : Target} {s : State} (f : Rate) (hv : (digitsOf s t).valid = false) :
    setIncr t f s = .raised (recordFault t .setIncr s) := by
  simpa [hv] using setIncr_cases t f s

theorem exec_setIncr_fast {t : Target} {s : State} (hf : s.fault = none) (hv : (digitsOf s t).valid = true) :
    exec (.setIncr t .fast) s = .next (writeDigits t (bcdIncr (digitsOf s t)) s) := by
  rw [exec_setIncr t .fast hf, setIncr_of_valid .fast hv, digitsAfterSet_fast, countSet_fast, completed_state]

theorem exec_setIncr_slow_of_due {t : Target} {s : State} (hf : s.fault = none) (hv : (digitsOf s t).valid = true)
    (hk : s.params.slowDivisor.toNat ≤ s.slowCnt.toNat + 1) :
    exec (.setIncr t .slow) s = .next (writeDigits t (bcdIncr (digitsOf s t)) { s with slowCnt := 0 }) := by
  rw [exec_setIncr t .slow hf, setIncr_of_valid .slow hv, digitsAfterSet_slow_of_due t hk, countSet_slow_of_due hk,
    completed_state]

theorem exec_setIncr_slow_of_not_due {t : Target} {s : State} (hf : s.fault = none)
    (hv : (digitsOf s t).valid = true) (hk : s.slowCnt.toNat + 1 < s.params.slowDivisor.toNat) :
    exec (.setIncr t .slow) s = .next { s with slowCnt := s.slowCnt + 1 } := by
  rw [exec_setIncr t .slow hf, setIncr_of_valid .slow hv, digitsAfterSet_slow_of_not_due t hk,
    countSet_slow_of_not_due hk, completed_state]
  cases t <;> rfl

/-- Settles O14: a valid target is stepped by fast calls and by the slow call at which the count reaches K. -/
theorem setIncrStepsItsTarget : Obligations.SetIncrStepsItsTarget := by
  refine ⟨encode_setIncr, fun s hf => ⟨?fastClock, ?fastAlarm, ?dueClock, ?dueAlarm, ?notDue, ?invalid⟩⟩
  case fastClock => exact fun hv => exec_setIncr_fast (t := .clock) hf hv
  case fastAlarm => exact fun hv => exec_setIncr_fast (t := .alarm) hf hv
  case dueClock => exact fun hv hk => exec_setIncr_slow_of_due (t := .clock) hf hv hk
  case dueAlarm => exact fun hv hk => exec_setIncr_slow_of_due (t := .alarm) hf hv hk
  case notDue => exact fun t hv hk => exec_setIncr_slow_of_not_due hf hv hk
  case invalid =>
    intro t f hv
    rw [exec_setIncr t f hf, setIncr_of_invalid f hv]
    rfl

/-! ### EVAL_ALARM -/

/-- A match sounds and keeps `silenced`. -/
theorem compareAlarm_of_eq {s : State} (h : s.clock = s.alarm) : compareAlarm s = { s with sounding := true } := by
  rw [compareAlarm, decide_eq_true h, Bool.and_true]

/-- A mismatch clears both flags. -/
theorem compareAlarm_of_ne {s : State} (h : s.clock ≠ s.alarm) :
    compareAlarm s = { s with sounding := false, silenced := false } := by
  rw [compareAlarm, decide_eq_false h, Bool.and_false]

theorem evalAlarm_of_valid {s : State} (hc : s.clock.valid = true) (ha : s.alarm.valid = true) :
    evalAlarm s = .completed (compareAlarm s) := by
  simpa [hc, ha] using evalAlarm_cases s

/-- The clock is checked first, so an invalid alarm beside it is not seen. -/
theorem evalAlarm_of_invalid_clock {s : State} (hc : s.clock.valid = false) :
    evalAlarm s = .raised (recordFault .clock .evalAlarm s) := by
  simpa [hc] using evalAlarm_cases s

theorem evalAlarm_of_invalid_alarm {s : State} (hc : s.clock.valid = true) (ha : s.alarm.valid = false) :
    evalAlarm s = .raised (recordFault .alarm .evalAlarm s) := by
  simpa [hc, ha] using evalAlarm_cases s

/-- Settles O15: two checks in order, then the comparison. -/
theorem evalAlarmComparesTheDigitSets : Obligations.EvalAlarmComparesTheDigitSets := by
  refine ⟨rfl, fun s hf => ⟨fun hc ha => ⟨fun heq => ?equal, fun hne => ?mismatch⟩, fun hc => ?clockInvalid,
    fun hc ha => ?alarmInvalid⟩⟩ <;> rw [exec_evalAlarm hf]
  case equal => rw [evalAlarm_of_valid hc ha, completed_state, compareAlarm_of_eq heq]
  case mismatch => rw [evalAlarm_of_valid hc ha, completed_state, compareAlarm_of_ne hne]
  case clockInvalid =>
    rw [evalAlarm_of_invalid_clock hc]
    rfl
  case alarmInvalid =>
    rw [evalAlarm_of_invalid_alarm hc ha]
    rfl

end Sys2Proof.Machine

/-! PROOFS. The statements of 42_tick_scheduler.md: what TICK leaves on valid digit sets. -/

namespace Sys2Proof.Machine

open Sys2Proof

/-! ### The BCD increment keeps a digit set valid -/

/-- A digit at most one above its greatest value is in range after the carry. -/
theorem bcdCarry_fst_le {most digit : Nat} (next : Nat) (h : digit ≤ most + 1) : (bcdCarry most digit next).1 ≤ most := by
  rw [bcdCarry]
  split <;> omega

/-- A carry adds at most 1 to the next digit. -/
theorem bcdCarry_snd_le (most digit next : Nat) : (bcdCarry most digit next).2 ≤ next + 1 := by
  rw [bcdCarry]
  split <;> omega

/-- A carry out of a decimal digit keeps the two-digit number. -/
theorem bcdCarry_nine_value {digit : Nat} (next : Nat) (h : digit ≤ 10) :
    10 * (bcdCarry 9 digit next).2 + (bcdCarry 9 digit next).1 = 10 * next + digit := by
  rw [bcdCarry]
  split <;> omega

/-- One minute after a valid time is a valid time (41_clock_alarm.md R80): every carry leaves its digit in range, and the
hours, at most 24 after the carries, are less than 24 when the increment does not wrap. -/
theorem bcdIncr_valid {D : DigitSet} (h : D.valid = true) : (bcdIncr D).valid = true := by
  obtain ⟨hmu, hmt, hhu, hht, hhours⟩ := (valid_iff D).1 h
  simp only [bcdIncr]
  generalize hc0 : bcdCarry 9 (D.minuteUnits.toNat + 1) D.minuteTens.toNat = c0
  generalize hc1 : bcdCarry 5 c0.2 D.hourUnits.toNat = c1
  generalize hc2 : bcdCarry 9 c1.2 D.hourTens.toNat = c2
  have hmu' : c0.1 ≤ 9 := hc0 ▸ bcdCarry_fst_le _ (by omega)
  have hcarry0 : c0.2 ≤ D.minuteTens.toNat + 1 := hc0 ▸ bcdCarry_snd_le ..
  have hmt' : c1.1 ≤ 5 := hc1 ▸ bcdCarry_fst_le _ (by omega)
  have hcarry1 : c1.2 ≤ D.hourUnits.toNat + 1 := hc1 ▸ bcdCarry_snd_le ..
  have hhu' : c2.1 ≤ 9 := hc2 ▸ bcdCarry_fst_le _ (by omega)
  have hhours' : 10 * c2.2 + c2.1 = 10 * D.hourTens.toNat + c1.2 := hc2 ▸ bcdCarry_nine_value _ (by omega)
  split
  case isTrue => decide
  case isFalse hnowrap =>
    simp only [valid_iff, BitVec.toNat_ofNat]
    omega

/-! ### The steps of TICK -/

/-- The comparison of the alarm, with `silenced` kept on a match and cleared on a mismatch. -/
theorem compareAlarm_eq_ite (s : State) :
    compareAlarm s = { s with
      sounding := decide (s.clock = s.alarm)
      silenced := if s.clock = s.alarm then s.silenced else false } := by
  by_cases h : s.clock = s.alarm
  · rw [compareAlarm_of_eq h, decide_eq_true h, if_pos h]
  · rw [compareAlarm_of_ne h, decide_eq_false h, if_neg h]

theorem tickAccumulate_of_due {s : State} (hn : s.params.ticksPerMinute.toNat ≤ s.tickAcc.toNat + 1)
    (hc : s.clock.valid = true) : tickAccumulate s = .completed (advanceClock (setTickAcc 0 s)) := by
  simpa [hc, hn, Nat.not_lt.2 hn] using tickAccumulate_cases s

theorem tickAccumulate_of_not_due {s : State} (hn : s.tickAcc.toNat + 1 < s.params.ticksPerMinute.toNat) :
    tickAccumulate s = .completed (setTickAcc (s.tickAcc + 1) s) := by
  simpa [hn, Nat.not_le.2 hn] using tickAccumulate_cases s

/-- Steps 3 to 5 of TICK, on what its first two steps leave when both digit sets are valid there. -/
theorem exec_tick_of_completed {s u : State} (hf : s.fault = none) (hu : tickAccumulate (tickBlink s) = .completed u)
    (hc : u.clock.valid = true) (ha : u.alarm.valid = true) :
    exec .tick s = .next (tickResume (tickCountDown (compareAlarm u))) := by
  have henabled : enabledIn .tick s = true := (noFault_iff s).2 hf
  have hstate : (tick s).state = tickResume (tickCountDown (compareAlarm u)) := by
    simpa [hu, hc, ha] using tick_cases s
  rw [exec_of_enabled henabled, ← hstate]
  rfl

/-- Settles O16: the two outcomes of step 2, and on each the comparison with the clock that step left. -/
theorem tickDoesItsFiveStepsInOrder : Obligations.TickDoesItsFiveStepsInOrder := by
  intro s hf hc ha minuteEnds
  refine ⟨fun hdue => ?minuteEnded, fun hnot => ?minuteGoesOn⟩
  case minuteEnded =>
    have hacc : tickAccumulate (tickBlink s) = .completed (advanceClock (setTickAcc 0 (tickBlink s))) :=
      tickAccumulate_of_due hdue hc
    rw [exec_tick_of_completed hf hacc (bcdIncr_valid hc) ha, compareAlarm_eq_ite]
    rfl
  case minuteGoesOn =>
    have hacc : tickAccumulate (tickBlink s) = .completed (setTickAcc (s.tickAcc + 1) (tickBlink s)) :=
      tickAccumulate_of_not_due (Nat.not_le.1 hnot)
    rw [exec_tick_of_completed hf hacc hc ha, compareAlarm_eq_ite]
    rfl

end Sys2Proof.Machine

/-! PROOFS. The statements of 44_debounce_mode.md: the sequencer and the interrupts beside it, the operations of the mode
controller, the wake button. -/

namespace Sys2Proof.Machine

open Sys2Proof

/-! ### Where the main loop's operations are enabled -/

/-- The phase that names an operation of the main loop is the one it is enabled at. -/
theorem enabledIn_of_phaseOf {i : Instr} {p : BitVec 4} (hp : phaseOf i = some p) (s : State) :
    enabledIn i s = mainLoopEnabled p s := by
  cases i <;> cases hp <;> rfl

theorem exec_of_atPhase {i : Instr} {p : BitVec 4} {s : State} (hp : phaseOf i = some p)
    (he : s.fault = none ∧ s.idle = false ∧ s.phase = p) : exec i s = .next (stateAfter i s) :=
  exec_of_enabled ((enabledIn_of_phaseOf hp s).trans ((mainLoopEnabled_iff p s).2 he))

theorem exec_of_not_atPhase {i : Instr} {p : BitVec 4} {s : State} (hp : phaseOf i = some p)
    (he : ¬ (s.fault = none ∧ s.idle = false ∧ s.phase = p)) : exec i s = .refused (.notEnabled i) :=
  exec_of_disabled ((enabledIn_of_phaseOf hp s).trans
    (Bool.eq_false_iff.2 fun h => he ((mainLoopEnabled_iff p s).1 h)))

/-! ### The active alarm -/

theorem alarmActive_iff (s : State) : alarmActive s = true ↔ s.sounding = true ∧ s.silenced = false := by
  rw [alarmActive, Bool.and_eq_true, Bool.not_eq_true']

theorem alarmActive_eq_false_iff (s : State) :
    alarmActive s = false ↔ ¬ (s.sounding = true ∧ s.silenced = false) := by
  rw [← alarmActive_iff, Bool.not_eq_true]

/-! ### ALARM_SERVICE -/

theorem alarmService_of_active {s : State} (ha : alarmActive s = true) :
    alarmService s = setPhase 1 (showAlarm s) := by
  rw [alarmService, if_pos ha]

theorem alarmService_of_quiet {s : State} (ha : alarmActive s = false) : alarmService s = setPhase 1 s := by
  rw [alarmService, ha]
  rfl

/-- Settles O28: the two outcomes of the test of the active alarm. -/
theorem alarmServiceBringsTheDisplayToTheAlarm : Obligations.AlarmServiceBringsTheDisplayToTheAlarm := by
  refine ⟨rfl, fun s => ⟨fun he => ⟨fun ha => ?active, fun ha => ?quiet⟩, exec_of_not_atPhase rfl⟩⟩ <;>
    rw [exec_of_atPhase rfl he]
  case active => exact congrArg _ (alarmService_of_active ((alarmActive_iff s).2 ha))
  case quiet => exact congrArg _ (alarmService_of_quiet ((alarmActive_eq_false_iff s).2 ha))

/-! ### IDLE_CHECK -/

theorem idleCheck_of_quiet {s : State} (hs : s.asleep = true) (ha : alarmActive s = false) :
    idleCheck s = setPhase 0 (beginIdle s) := by
  rw [idleCheck, if_pos hs, ha]
  rfl

theorem idleCheck_of_active {s : State} (hs : s.asleep = true) (ha : alarmActive s = true) :
    idleCheck s = setPhase 0 s := by
  rw [idleCheck, if_pos hs, if_pos ha]

theorem idleCheck_of_awake {s : State} (hs : s.asleep = false) : idleCheck s = setPhase 2 s := by
  rw [idleCheck, hs]
  rfl

/-- Where IDLE_CHECK sends the phase: back to the start of the pass while asleep, whether it waits or not. -/
theorem idleCheck_phase (s : State) : (idleCheck s).phase = if s.asleep then 0 else 2 := by
  cases hs : s.asleep
  case false => simp [idleCheck_of_awake hs]
  case true =>
    cases ha : alarmActive s
    · simp [idleCheck_of_quiet hs ha]
    · simp [idleCheck_of_active hs ha]

/-- Settles O29: the test of Sleeping, and in it the test of the active alarm. -/
theorem idleCheckWaitsOnlyAsleepAndQuiet : Obligations.IdleCheckWaitsOnlyAsleepAndQuiet := by
  refine ⟨rfl, fun s => ⟨fun he => ⟨fun hs ha => ?waits, fun hs ha => ?retries, fun hs => ?sweeps⟩,
    exec_of_not_atPhase rfl⟩⟩ <;> rw [exec_of_atPhase rfl he]
  case waits => exact congrArg _ (idleCheck_of_quiet hs ((alarmActive_eq_false_iff s).2 ha))
  case retries => exact congrArg _ (idleCheck_of_active hs ((alarmActive_iff s).2 ha))
  case sweeps => exact congrArg _ (idleCheck_of_awake hs)

/-! ### DEBOUNCE -/

theorem pressEdge_eq_decide (c l : ButtonCode) : pressEdge c l = decide (c ≠ .none ∧ c ≠ l) :=
  (Bool.decide_and _ _).symm

/-- A sample that differs from the previous pass's is remembered and not accepted. -/
theorem debounce_of_changed {s : State} (h : debounceSample s.raw ≠ s.prev) :
    debounce s = { s with
      raw := debounceSample s.raw, prev := debounceSample s.raw, stable := .none, edge := false,
      lastStable := .none, phase := 8 } := by
  simp only [debounce, if_neg h]
  rfl

/-- A sample that equals the previous pass's is accepted. -/
theorem debounce_of_repeated {s : State} (h : debounceSample s.raw = s.prev) :
    debounce s = { s with
      raw := debounceSample s.raw, stable := debounceSample s.raw,
      edge := decide (debounceSample s.raw ≠ .none ∧ debounceSample s.raw ≠ s.lastStable),
      lastStable := debounceSample s.raw, phase := 8 } := by
  simp only [debounce, h, if_true, pressEdge_eq_decide]

/-- Settles O30: the comparison of the sample with the previous pass's decides whether it is accepted. -/
theorem debounceAcceptsARepeatedSample : Obligations.DebounceAcceptsARepeatedSample := by
  refine ⟨rfl, fun s => ⟨fun he => ⟨fun hchanged => ?changed, fun hsame => ?repeated⟩, exec_of_not_atPhase rfl⟩⟩ <;>
    rw [exec_of_atPhase rfl he]
  case changed => exact congrArg _ (debounce_of_changed hchanged)
  case repeated => exact congrArg _ (debounce_of_repeated hsame)

/-! ### AUTO_OFF -/

theorem sleepDue_iff (s : State) :
    sleepDue s = true ↔ s.asleep = false ∧ s.countdown = 0 ∧ ¬ (s.sounding = true ∧ s.silenced = false) := by
  rw [sleepDue, Bool.and_eq_true, Bool.and_eq_true, Bool.not_eq_true', Bool.not_eq_true', decide_eq_true_eq,
    alarmActive_eq_false_iff, and_assoc]

theorem autoOff_of_due {s : State} (h : sleepDue s = true) : autoOff s = setPhase 0 (enterSleep s) := by
  rw [autoOff, if_pos h]

theorem autoOff_of_not_due {s : State} (h : ¬ sleepDue s = true) : autoOff s = setPhase 0 s := by
  rw [autoOff, if_neg h]

/-- Settles O35: AUTO_OFF sleeps exactly when its three conditions hold. -/
theorem autoOffEntersSleeping : Obligations.AutoOffEntersSleeping := by
  refine ⟨rfl, fun s => ⟨fun he => ⟨fun hdue => ?due, fun hnot => ?notDue⟩, exec_of_not_atPhase rfl⟩⟩ <;>
    rw [exec_of_atPhase rfl he]
  case due => exact congrArg _ (autoOff_of_due ((sleepDue_iff s).2 hdue))
  case notDue => exact congrArg _ (autoOff_of_not_due (mt (sleepDue_iff s).1 hnot))

/-! ### The wake button -/

theorem wakeEdge_of_noted {s : State} (h : s.wakeIE = true ∨ s.params.wakeLatch = true) :
    wakeEdge s = setWakePending s := by
  rw [wakeEdge, if_pos (Bool.or_eq_true_iff.2 h)]

theorem wakeEdge_of_lost {s : State} (hie : s.wakeIE = false) (hlatch : s.params.wakeLatch = false) :
    wakeEdge s = s := by
  rw [wakeEdge, hie, hlatch]
  rfl

/-- Settles O36: an edge is noted by the enable or the latch, at any point of the pass. -/
theorem wakeEdgeIsNotedWhenArmedOrLatched : Obligations.WakeEdgeIsNotedWhenArmedOrLatched := by
  refine ⟨rfl, fun s => ⟨fun hf => ?noFault, fun hf => ?faulted⟩⟩
  case noFault =>
    have henabled : enabledIn .wakeEdge s = true := (noFault_iff s).2 hf
    rw [exec_of_enabled henabled]
    exact ⟨fun h => congrArg _ (wakeEdge_of_noted h), fun hie hlatch => congrArg _ (wakeEdge_of_lost hie hlatch)⟩
  case faulted => exact exec_of_disabled (Bool.eq_false_iff.2 fun h => hf ((noFault_iff s).1 h))

/-- What the wake interrupt leaves in `silenced`: an active alarm is silenced, and a silenced one stays so. -/
theorem silenced_or_alarmActive (s : State) :
    (s.silenced || alarmActive s) = if s.sounding = true ∧ s.silenced = false then true else s.silenced := by
  by_cases h : s.sounding = true ∧ s.silenced = false
  · rw [if_pos h, (alarmActive_iff s).2 h, Bool.or_true]
  · rw [if_neg h, (alarmActive_eq_false_iff s).2 h, Bool.or_false]

/-- Settles O37: the interrupt is taken when armed and pending, and what it leaves in `silenced` is read off the flags. -/
theorem wakeIsrWakesAndCancels : Obligations.WakeIsrWakesAndCancels := by
  refine ⟨rfl, fun s => ⟨fun he => ?taken, fun he => ?refused⟩⟩
  case taken =>
    have henabled : enabledIn .wakeIsr s = true := (wakeIsrEnabled_iff s).2 he
    rw [exec_of_enabled henabled, ← silenced_or_alarmActive]
    rfl
  case refused => exact exec_of_disabled (Bool.eq_false_iff.2 fun h => he ((wakeIsrEnabled_iff s).1 h))

/-! ### Updates an operation neither reads nor writes

An operation that commutes with an update of some registers does the same with other values there and leaves those
values. Both the phase under the interrupts and the countdown under SET_INCR are such registers. -/

/-- An effect with the state it has come to changed. -/
def Effect.mapState (g : State → State) : Effect → Effect
  | .completed s => .completed (g s)
  | .raised s => .raised (g s)

@[simp] theorem mapState_state (g : State → State) (e : Effect) : (e.mapState g).state = g e.state := by
  cases e <;> rfl

/-- An operation neither reads nor undoes the update `g`. -/
def CommutesWith (g : State → State) (F : State → Effect) : Prop := ∀ s, F (g s) = (F s).mapState g

theorem commutesWith_completed {g f : State → State} (h : ∀ s, f (g s) = g (f s)) :
    CommutesWith g fun s => .completed (f s) :=
  fun s => congrArg Effect.completed (h s)

/-- Steps that each commute with an update commute with it in sequence. -/
theorem commutesWith_andThen {g : State → State} {F G : State → Effect} (hF : CommutesWith g F)
    (hG : CommutesWith g G) : CommutesWith g fun s => (F s).andThen G := by
  intro s
  have hFs : F (g s) = (F s).mapState g := hF s
  cases h : F s with
  | completed u => simpa [hFs, h, Effect.mapState] using hG u
  | raised u => simp [hFs, h, Effect.mapState]

/-- The check of a digit set commutes with every update that leaves that set and does not depend on the fault. -/
theorem commutesWith_checkDigits {g : State → State} (t : Target) (op : Raiser)
    (hdigits : ∀ s, digitsOf (g s) t = digitsOf s t)
    (hfault : ∀ s, recordFault t op (g s) = g (recordFault t op s)) : CommutesWith g (checkDigits t op) := by
  intro s
  cases hv : (digitsOf s t).valid
  · rw [checkDigits_of_invalid hv, checkDigits_of_invalid ((congrArg _ (hdigits s)).trans hv), hfault]
    rfl
  · rw [checkDigits_of_valid hv, checkDigits_of_valid ((congrArg _ (hdigits s)).trans hv)]
    rfl

/-- An operation whose enabling does not depend on an update, and whose next state commutes with it, answers what it answers
without the update, with its next state updated. -/
theorem exec_commute {i : Instr} {g : State → State} {s : State} (henabled : enabledIn i (g s) = enabledIn i s)
    (hstate : stateAfter i (g s) = g (stateAfter i s)) : exec i (g s) = mapNext g (exec i s) := by
  rw [exec_eq_performIf, exec_eq_performIf, henabled, hstate]
  cases enabledIn i s <;> rfl

/-! ### The interrupts and the phase -/

theorem commutesWith_setPhase_checkDigits (p : BitVec 4) (t : Target) (op : Raiser) :
    CommutesWith (setPhase p) (checkDigits t op) :=
  commutesWith_checkDigits t op (fun _ => by cases t <;> rfl) fun _ => rfl

theorem commutesWith_setPhase_minuteIncr (p : BitVec 4) : CommutesWith (setPhase p) minuteIncr :=
  commutesWith_andThen (commutesWith_setPhase_checkDigits p _ _) (commutesWith_completed fun _ => rfl)

theorem commutesWith_setPhase_evalAlarm (p : BitVec 4) : CommutesWith (setPhase p) evalAlarm :=
  commutesWith_andThen (commutesWith_setPhase_checkDigits p _ _)
    (commutesWith_andThen (commutesWith_setPhase_checkDigits p _ _) (commutesWith_completed fun _ => rfl))

/-- Step 2 of TICK, on both outcomes of its comparison with N. -/
theorem commutesWith_setPhase_tickAccumulate (p : BitVec 4) : CommutesWith (setPhase p) tickAccumulate := by
  intro s
  have hends : tickEndsMinute (setPhase p s) = tickEndsMinute s := rfl
  rw [tickAccumulate, tickAccumulate, hends]
  split
  case isTrue => exact commutesWith_setPhase_minuteIncr p (setTickAcc 0 s)
  case isFalse => rfl

theorem commutesWith_setPhase_tick (p : BitVec 4) : CommutesWith (setPhase p) tick :=
  commutesWith_andThen
    (commutesWith_andThen (fun s => commutesWith_setPhase_tickAccumulate p (tickBlink s))
      (commutesWith_setPhase_evalAlarm p))
    (commutesWith_completed fun _ => rfl)

theorem wakeEdge_setPhase (p : BitVec 4) (s : State) : wakeEdge (setPhase p s) = setPhase p (wakeEdge s) := by
  rw [wakeEdge, wakeEdge, setPhase_wakeIE, setPhase_params]
  split <;> rfl

/-- TICK, WAKE_EDGE and WAKE_ISR neither read nor write the phase (60_exceptions.md R124). -/
theorem exec_interrupt_setPhase {i : Instr} (hi : i = .tick ∨ i = .wakeEdge ∨ i = .wakeIsr) (p : BitVec 4)
    (s : State) : exec i (setPhase p s) = mapNext (setPhase p) (exec i s) := by
  rcases hi with rfl | rfl | rfl
  · refine exec_commute rfl ?_
    calc (tick (setPhase p s)).state
        = ((tick s).mapState (setPhase p)).state := congrArg _ (commutesWith_setPhase_tick p s)
      _ = setPhase p (tick s).state := mapState_state _ _
  · exact exec_commute rfl (wakeEdge_setPhase p s)
  · exact exec_commute rfl rfl

/-! ### DISPATCH -/

/-- The function the button map gives the slot of the accepted code (00_scope.md R9). -/
def acceptedFunction (s : State) : ButtonFunction := buttonFunction s.params.buttonMap (slotOf s.stable)

/-- On a slot code it is the map's own entry for that slot. -/
theorem acceptedFunction_of_slot {s : State} {f : ButtonFunction}
    (h : s.stable = .slot0 ∧ f = s.params.buttonMap.slot0 ∨ s.stable = .slot1 ∧ f = s.params.buttonMap.slot1
      ∨ s.stable = .slot2 ∧ f = s.params.buttonMap.slot2 ∨ s.stable = .slot3 ∧ f = s.params.buttonMap.slot3) :
    s.stable ≠ .none ∧ acceptedFunction s = f := by
  rcases h with ⟨hs, rfl⟩ | ⟨hs, rfl⟩ | ⟨hs, rfl⟩ | ⟨hs, rfl⟩ <;>
    exact ⟨by simp [hs], by rw [acceptedFunction, hs]; rfl⟩

theorem dispatch_of_no_code {s : State} (hs : s.stable = .none) : dispatch s = .completed (setPhase 9 s) := by
  simpa [hs] using dispatch_cases s

theorem dispatch_of_active {s : State} (hs : s.stable ≠ .none) (ha : alarmActive s = true) :
    dispatch s = .completed (setPhase 9 (silence (reloadCountdown s))) := by
  simpa [hs, ha] using dispatch_cases s

theorem dispatch_of_quiet {s : State} (hs : s.stable ≠ .none) (ha : alarmActive s = false) :
    dispatch s = (pressFunction (acceptedFunction s) (reloadCountdown s)).andThen
      fun u => .completed (setPhase 9 u) := by
  simpa [hs, ha, acceptedFunction] using dispatch_cases s

theorem pressFunction_mode_of_edge {s : State} (h : s.edge = true) :
    pressFunction .mode s = .completed (toggleSetting s) := by
  rw [pressFunction, modePress, if_pos h]

/-- A MODE button held on is no new press. -/
theorem pressFunction_mode_of_held {s : State} (h : s.edge = false) : pressFunction .mode s = .completed s := by
  rw [pressFunction, modePress, h]
  rfl

theorem pressFunction_nofunc (s : State) : pressFunction .nofunc s = .completed s := rfl

/-- The button function that calls SET_INCR at a rate (00_scope.md R9). -/
def rateFunction : Rate → ButtonFunction
  | .slow => .slow
  | .fast => .fast

/-- SLOW and FAST are the two rates of SET_INCR on the set that Setting selects. -/
theorem pressFunction_rateFunction (r : Rate) (s : State) :
    pressFunction (rateFunction r) s = setIncr (target s) r s := by
  cases r <;> rfl

/-- SET_INCR neither reads nor writes the countdown, so its reload may come after it. -/
theorem commutesWith_reloadCountdown_setIncr (t : Target) (r : Rate) : CommutesWith reloadCountdown (setIncr t r) :=
  commutesWith_andThen (commutesWith_checkDigits t _ (digitsOf_reloadCountdown t) fun _ => rfl)
    (commutesWith_completed fun s => by cases t <;> cases r <;> rfl)

theorem setIncr_params (t : Target) (r : Rate) (s : State) : (setIncr t r s).state.params = s.params := by
  rcases setIncr_cases t r s with ⟨-, h⟩ | ⟨-, h⟩ <;> simp [h]

/-- From a state without a fault, SET_INCR leaves one exactly when it raises. -/
theorem setIncr_fault_cases (t : Target) (r : Rate) {s : State} (hf : s.fault = none) :
    (∃ u, setIncr t r s = .completed u ∧ u.fault = none) ∨ ∃ u, setIncr t r s = .raised u ∧ u.fault ≠ none := by
  rcases setIncr_cases t r s with ⟨-, h⟩ | ⟨-, h⟩
  · exact .inl ⟨_, h, by simp [hf]⟩
  · exact .inr ⟨_, h, by simp⟩

/-- A SLOW or FAST press leaves what SET_INCR leaves, with the countdown reloaded, and moves the phase on unless the set
raised. -/
theorem dispatch_of_set {s : State} (r : Rate) (hs : s.stable ≠ .none) (ha : alarmActive s = false)
    (hr : acceptedFunction s = rateFunction r) :
    dispatch s = ((setIncr (target s) r s).mapState reloadCountdown).andThen fun u => .completed (setPhase 9 u) := by
  rw [dispatch_of_quiet hs ha, hr, pressFunction_rateFunction, target_reloadCountdown, commutesWith_reloadCountdown_setIncr]

theorem reloadCountdown_of_params {s u : State} (h : u.params = s.params) :
    reloadCountdown u = { u with countdown := s.params.autoOffTicks } := by
  rw [reloadCountdown, h]

/-- The clause of R110 about SLOW and FAST, in terms of what SET_INCR leaves. -/
theorem dispatch_state_of_set {s u : State} (r : Rate) (hf : s.fault = none) (hs : s.stable ≠ .none)
    (ha : alarmActive s = false) (hr : acceptedFunction s = rateFunction r)
    (hu : u = (setIncr (target s) r s).state) :
    (u.fault = none → (dispatch s).state = { u with countdown := s.params.autoOffTicks, phase := 9 })
      ∧ (u.fault ≠ none → (dispatch s).state = { u with countdown := s.params.autoOffTicks }) := by
  have hreload := reloadCountdown_of_params (hu ▸ setIncr_params (target s) r s)
  rw [dispatch_of_set r hs ha hr]
  rcases setIncr_fault_cases (target s) r hf with ⟨v, h, hv⟩ | ⟨v, h, hv⟩ <;> rw [h] at hu ⊢ <;> subst hu
  · exact ⟨fun _ => congrArg (setPhase 9) hreload, fun hu => absurd hv hu⟩
  · exact ⟨fun hu => absurd hu hv, fun _ => hreload⟩

/-- Settles O33: no code, an active alarm, or the function of the accepted slot; a set commutes with the reload. -/
theorem dispatchActsOnTheAcceptedCode : Obligations.DispatchActsOnTheAcceptedCode := by
  refine ⟨rfl, fun s => ⟨exec_of_not_atPhase rfl, fun he => ?_⟩⟩
  have hexec : exec .dispatch s = .next (dispatch s).state := exec_of_atPhase rfl he
  rw [hexec]
  refine ⟨fun hs => ?noCode, fun hs ha => ?silences, fun f hslot hq => ?press⟩
  case noCode =>
    rw [dispatch_of_no_code hs]
    rfl
  case silences =>
    rw [dispatch_of_active hs ((alarmActive_iff s).2 ha)]
    rfl
  case press =>
    obtain ⟨hs, rfl⟩ := acceptedFunction_of_slot hslot
    have ha := (alarmActive_eq_false_iff s).2 hq
    refine ⟨fun hm hedge => ?toggles, fun hm hheld => ?held, fun hn => ?nofunc, fun r u hr hu => ?sets⟩
    case toggles =>
      rw [dispatch_of_quiet hs ha, hm, pressFunction_mode_of_edge (s := reloadCountdown s) hedge]
      rfl
    case held =>
      rw [dispatch_of_quiet hs ha, hm, pressFunction_mode_of_held (s := reloadCountdown s) hheld]
      rfl
    case nofunc =>
      rw [dispatch_of_quiet hs ha, hn, pressFunction_nofunc]
      rfl
    case sets =>
      have hstate : u = (setIncr (target s) r s).state := ((exec_next_iff _ _ _).1 hu).2
      have hrate : acceptedFunction s = rateFunction r := hr.trans (by cases r <;> rfl)
      obtain ⟨hgoes, hraises⟩ := dispatch_state_of_set r he.1 hs ha hrate hstate
      exact ⟨fun hf => congrArg _ (hgoes hf), fun hf => ⟨_, congrArg _ (hraises hf), rfl⟩⟩

/-! ### Where the main loop's operations send the phase -/

/-- The phase after the operation of phase `p`, from 9 back to the start of the pass (44_debounce_mode.md R103).
IDLE_CHECK has its own two (`idleCheck_phase`). -/
def nextPhase (p : BitVec 4) : BitVec 4 := if p = 9 then 0 else p + 1

theorem strobe_phase_of_noFault {i : Position} {s : State} (hf : (strobe i s).state.fault = none) :
    (strobe i s).state.phase = s.phase + 1 := by
  rcases strobe_cases i s with ⟨-, m, -, h⟩ | ⟨-, h⟩
  · simp [h]
  · simp [h] at hf

/-- A button's function that raises has recorded a fault. -/
theorem fault_of_pressFunction_raised {b : ButtonFunction} {s u : State} (h : pressFunction b s = .raised u) :
    u.fault ≠ none := by
  rcases pressFunction_cases b s with ⟨hp, -⟩ | ⟨hp, -⟩ | ⟨r, hp, -⟩ <;> rw [h] at hp
  · cases hp
  · cases hp
  · rcases setIncr_cases (target s) r s with ⟨-, hset⟩ | ⟨-, hset⟩ <;> rw [hset] at hp <;> cases hp
    simp

theorem dispatch_phase_of_noFault {s : State} (hf : (dispatch s).state.fault = none) : (dispatch s).state.phase = 9 := by
  rcases dispatch_cases s with ⟨-, h⟩ | ⟨-, -, h⟩ | ⟨hs, ha, -⟩
  · simp [h]
  · simp [h]
  · cases hp : pressFunction (acceptedFunction s) (reloadCountdown s) with
    | completed u => simp [dispatch_of_quiet hs ha, hp]
    | raised u =>
      rw [dispatch_of_quiet hs ha, hp] at hf
      exact absurd hf (fault_of_pressFunction_raised hp)

theorem strobePhase_ne_nine (j : Position) : strobePhase j ≠ 9 := by
  revert j
  decide

/-- Every operation of the main loop but IDLE_CHECK moves the phase on by one, or ends the pass, unless it raises. -/
theorem stateAfter_phase_of_noFault {i : Instr} {p : BitVec 4} {s : State} (hp : phaseOf i = some p)
    (hi : i ≠ .idleCheck) (hs : s.phase = p) (hf : (stateAfter i s).fault = none) :
    (stateAfter i s).phase = nextPhase p := by
  cases i
  case idleCheck => exact absurd rfl hi
  case strobe j =>
    cases hp
    rw [nextPhase, if_neg (strobePhase_ne_nine j), ← hs]
    exact strobe_phase_of_noFault hf
  case dispatch =>
    cases hp
    exact dispatch_phase_of_noFault hf
  all_goals cases hp
  all_goals rfl

/-- The rows of the table of R103: an operation, the phase that names it, a phase it may leave. -/
def sequencingTable : List (Instr × BitVec 4 × BitVec 4) :=
  [ (.alarmService, 0, 1), (.strobe 0, 2, 3), (.strobe 1, 3, 4), (.strobe 2, 4, 5), (.strobe 3, 5, 6),
    (.sweepEnd, 6, 7), (.debounce, 7, 8), (.dispatch, 8, 9), (.autoOff, 9, 0), (.idleCheck, 1, 0), (.idleCheck, 1, 2) ]

/-- The table agrees with the sequencer's phases and, IDLE_CHECK apart, with the phase that follows each. -/
theorem sequencingTable_row : ∀ row ∈ sequencingTable,
    phaseOf row.1 = some row.2.1 ∧ (row.1 ≠ .idleCheck → row.2.2 = nextPhase row.2.1) := by
  decide

/-- Settles O40: the interrupts commute with a change of the phase; every row of the table is a row of the sequencer. -/
theorem phaseNamesTheMainLoopOperation : Obligations.PhaseNamesTheMainLoopOperation := by
  refine ⟨fun i s p hi => exec_interrupt_setPhase hi p s, fun i p q hrow s => ?_⟩
  obtain ⟨hp, hq⟩ : phaseOf i = some p ∧ (i ≠ .idleCheck → q = nextPhase p) := sequencingTable_row (i, p, q) hrow
  have hnext (t : State) : exec i s = .next t ↔ (s.fault = none ∧ s.idle = false ∧ s.phase = p) ∧ t = stateAfter i s := by
    rw [exec_next_iff, enabledIn_of_phaseOf hp, mainLoopEnabled_iff]
  simp only [hnext]
  refine ⟨?enabled, ?phase, ?idleCheck⟩
  case enabled => simp only [exists_and_left, exists_eq, and_true]
  case phase =>
    rintro t ⟨⟨-, -, hs⟩, rfl⟩ hf hi
    rw [hq hi, stateAfter_phase_of_noFault hp hi hs hf]
  case idleCheck =>
    rintro t ⟨-, rfl⟩ rfl
    exact idleCheck_phase s

end Sys2Proof.Machine

/-! PROOFS. What the environment holds (the schedule, the isolation mark, the levels, the draws) and the operations that
do not read it; then the statements of 30_encoding.md section 1 and 20_memory.md section 3 about words and steps. -/

namespace Sys2Proof.Machine

open Sys2Proof

/-! ### The environment's fields -/

/-- The state `s` with what the environment has chosen and supplied in `v`. -/
def withEnvironment (v s : State) : State :=
  { s with schedule := v.schedule, isolated := v.isolated, levels := v.levels, draws := v.draws }

/-- Whether an operation is enabled does not depend on the environment's fields. -/
@[simp] theorem enabledIn_withEnvironment (i : Instr) (v s : State) :
    enabledIn i (withEnvironment v s) = enabledIn i s := by
  cases i <;> rfl

/-- The state an operation is performed in is the step's but for the environment's fields. -/
theorem eq_withEnvironment_of_performedFrom {s u : State} (h : performedFrom s u) : u = withEnvironment u s := by
  rw [h]
  rfl

/-! ### The operation-word map, both ways -/

theorem decode_encode (i : Instr) : decode (encode i) = .operation i := by
  cases i
  case strobe p =>
    revert p
    decide
  case setIncr t f => cases t <;> cases f <;> rfl
  all_goals rfl

/-- A word in the four words from `p` on. -/
theorem eq_of_mem_fourWords {p w : Word} (hp : p.toNat + 3 < 256) (h : p.toNat ≤ w.toNat ∧ w.toNat ≤ p.toNat + 3) :
    w = p ∨ w = p + 1 ∨ w = p + 2 ∨ w = p + 3 := by
  bv_omega

/-- Every word of the map encodes an operation. -/
theorem exists_encode_of_isOperationWord {w : Word} (h : IsOperationWord w) : ∃ i : Instr, encode i = w := by
  rcases (isOperationWord_iff w).1 h with
    rfl | rfl | rfl | rfl | hstrobe | rfl | rfl | rfl | rfl | rfl | rfl | rfl | hset | rfl
  · exact ⟨.reset, rfl⟩
  · exact ⟨.tick, rfl⟩
  · exact ⟨.wakeEdge, rfl⟩
  · exact ⟨.wakeIsr, rfl⟩
  · rcases eq_of_mem_fourWords (p := 0x30) (by decide) hstrobe with rfl | rfl | rfl | rfl
    · exact ⟨.strobe 0, rfl⟩
    · exact ⟨.strobe 1, rfl⟩
    · exact ⟨.strobe 2, rfl⟩
    · exact ⟨.strobe 3, rfl⟩
  · exact ⟨.sweepEnd, rfl⟩
  · exact ⟨.debounce, rfl⟩
  · exact ⟨.dispatch, rfl⟩
  · exact ⟨.autoOff, rfl⟩
  · exact ⟨.alarmService, rfl⟩
  · exact ⟨.idleCheck, rfl⟩
  · exact ⟨.minuteIncr, rfl⟩
  · rcases eq_of_mem_fourWords (p := 0xB0) (by decide) hset with rfl | rfl | rfl | rfl
    · exact ⟨.setIncr .clock .slow, rfl⟩
    · exact ⟨.setIncr .alarm .slow, rfl⟩
    · exact ⟨.setIncr .clock .fast, rfl⟩
    · exact ⟨.setIncr .alarm .fast, rfl⟩
  · exact ⟨.evalAlarm, rfl⟩

/-- A word that decodes is a word of the map, and so one that `decode_encode` reads. -/
theorem encode_of_decode {w : Word} {i : Instr} (h : decode w = .operation i) : encode i = w := by
  have hword : IsOperationWord w := by
    by_contra hnot
    rw [decode_of_not_isOperationWord hnot] at h
    cases h
  obtain ⟨j, rfl⟩ := exists_encode_of_isOperationWord hword
  rw [decode_encode] at h
  cases h
  rfl

/-- Settles O3: the decoder reads back every encoded operation, and every word of the map encodes one. -/
theorem encodeAndDecodeAgree : Obligations.EncodeAndDecodeAgree :=
  ⟨decode_encode, fun _ _ => encode_of_decode⟩

/-- Settles O1: each word is the one its operation is encoded as. -/
theorem definedWordsDecodeAsTheMapSays : Obligations.DefinedWordsDecodeAsTheMapSays :=
  ⟨decode_encode .reset, decode_encode .tick, decode_encode .wakeEdge, decode_encode .wakeIsr,
    decode_encode (.strobe 0), decode_encode (.strobe 1), decode_encode (.strobe 2), decode_encode (.strobe 3),
    decode_encode .sweepEnd, decode_encode .debounce, decode_encode .dispatch, decode_encode .autoOff,
    decode_encode .alarmService, decode_encode .idleCheck, decode_encode .minuteIncr,
    decode_encode (.setIncr .clock .slow), decode_encode (.setIncr .alarm .slow),
    decode_encode (.setIncr .clock .fast), decode_encode (.setIncr .alarm .fast), decode_encode .evalAlarm⟩

/-! ### Scheduled words -/

theorem step_of_decoded {s : State} {w : Word} {rest : List Word} {i : Instr} (hs : s.schedule = w :: rest)
    (hd : decode w = .operation i) (hp : i.performedInRun = true ∨ s.isolated = true) :
    step s = exec i { s with schedule := rest, isolated := false } := by
  have hperform : (i.performedInRun || s.isolated) = true := Bool.or_eq_true_iff.2 hp
  simp only [step, fetch, hs, fetchWord, hd, hperform, if_true]

/-- Settles O4: the fetch of a decoded word, in a run or in isolation. -/
theorem stepPerformsTheScheduledWord : Obligations.StepPerformsTheScheduledWord :=
  fun _ _ _ _ hs hd hp => step_of_decoded hs hd hp

/-- The sub-operations are the operations no run performs on its own (30_encoding.md R63). -/
theorem performedInRun_of_subOperation {i : Instr}
    (h : i = .minuteIncr ∨ (∃ t f, i = .setIncr t f) ∨ i = .evalAlarm) : i.performedInRun = false := by
  rcases h with rfl | ⟨t, f, rfl⟩ | rfl <;> rfl

/-- Settles O5: neither the run nor an isolation mark lets the word be performed. -/
theorem subOperationsAreNoStepsOfARun : Obligations.SubOperationsAreNoStepsOfARun := by
  intro s w rest i hs hd hi hsub
  simp [step, fetch, hs, fetchWord, hd, hi, performedInRun_of_subOperation hsub]

/-! ### Free choices -/

theorem agentOf_of_phaseOf {i : Instr} {p : BitVec 4} (h : phaseOf i = some p) : agentOf i = .mainLoop := by
  cases i <;> cases h <;> rfl

/-- The operations enabled in a run: the two always, the armed and pending wake interrupt, the main loop's own. -/
theorem mem_enabledOperations_cases {i : Instr} {s : State} (h : i ∈ enabledOperations s) :
    i = .tick ∨ i = .wakeEdge ∨ (i = .wakeIsr ∧ wakeIsrEnabled s = true)
      ∨ (s.idle = false ∧ phaseOf i = some s.phase) := by
  simp only [enabledOperations, List.mem_append, List.mem_cons, List.not_mem_nil, or_false] at h
  rcases h with ((rfl | rfl) | hisr) | hloop
  · exact .inl rfl
  · exact .inr (.inl rfl)
  · split at hisr
    next hen => exact .inr (.inr (.inl ⟨List.mem_singleton.1 hisr, hen⟩))
    · cases hisr
  · rw [enabledMainLoop] at hloop
    split at hloop
    · cases hloop
    next hidle =>
      exact .inr (.inr (.inr ⟨Bool.eq_false_iff.2 hidle, by simpa using (List.mem_filter.1 hloop).2⟩))

/-- Without a fault, what the sequencer lists as enabled is enabled. -/
theorem enabledIn_of_mem_enabledOperations {i : Instr} {s : State} (hf : s.fault = none)
    (h : i ∈ enabledOperations s) : enabledIn i s = true := by
  rcases mem_enabledOperations_cases h with rfl | rfl | ⟨rfl, hen⟩ | ⟨hidle, hp⟩
  · exact (noFault_iff s).2 hf
  · exact (noFault_iff s).2 hf
  · exact hen
  · rw [enabledIn_of_phaseOf hp]
    exact (mainLoopEnabled_iff _ s).2 ⟨hf, hidle, rfl⟩

theorem agentOf_of_mem_enabledOperations {i : Instr} {s : State} (h : i ∈ enabledOperations s) :
    agentOf i = .tickTimer ∨ agentOf i = .wakePin ∨ agentOf i = .wakeInterrupt ∨ agentOf i = .mainLoop := by
  rcases mem_enabledOperations_cases h with rfl | rfl | ⟨rfl, -⟩ | ⟨-, hp⟩
  · exact .inl rfl
  · exact .inr (.inl rfl)
  · exact .inr (.inr (.inl rfl))
  · exact .inr (.inr (.inr (agentOf_of_phaseOf hp)))

/-- A free choice falls on an enabled operation: TICK is always in the list, so the index is in range. -/
theorem chosenOperation_mem (n : Nat) (s : State) : chosenOperation n s ∈ enabledOperations s := by
  have hlt : n % (enabledOperations s).length < (enabledOperations s).length :=
    Nat.mod_lt _ (List.length_pos_of_mem (a := .tick) (by simp [enabledOperations]))
  rw [chosenOperation, List.getD_eq_getElem _ _ hlt]
  exact List.getElem_mem hlt

theorem step_of_free {s : State} (hs : s.schedule = []) (hf : s.fault = none) :
    step s = exec (chosenOperation (Config.freeChoice s.draws) s) { s with draws := s.draws + 1, isolated := false } := by
  simp only [step, fetch, hs, fetchFree, hf]

/-- Settles O6: the free choice falls on an enabled operation, whatever its value. -/
theorem anUnscheduledStepPerformsAnEnabledOperation : Obligations.AnUnscheduledStepPerformsAnEnabledOperation := by
  intro s hs hf
  have hmem := chosenOperation_mem (Config.freeChoice s.draws) s
  have henabled := enabledIn_of_mem_enabledOperations hf hmem
  rw [← enabledIn_withEnvironment _ { s with draws := s.draws + 1, isolated := false }] at henabled
  exact ⟨_, _, agentOf_of_mem_enabledOperations hmem, step_of_free hs hf,
    (step_of_free hs hf).trans (exec_of_enabled henabled)⟩

/-! ### Selected words -/

/-- A word's own number names the word. -/
theorem tableWord_toNat (w : Word) : tableWord 8 w.toNat = w := by
  rw [tableWord, Nat.mod_eq_of_lt w.isLt, BitVec.ofNat_toNat, BitVec.setWidth_eq]

theorem decodeTableWord_encode (i : Instr) : decodeTableWord 8 (encode i).toNat = some i := by
  rw [decodeTableWord, tableWord_toNat, decode_encode]

theorem withFetchWord_encode (s : State) (i : Instr) :
    s.withFetchWord 8 (encode i).toNat = selectOperation i { s with schedule := encode i :: s.schedule } := by
  rw [State.withFetchWord, tableWord_toNat, scheduleWord, decode_encode]

/-- A selected operation may be performed: those of no run are selected in isolation. -/
theorem performedInRun_or_selected (i : Instr) (s : State) :
    i.performedInRun = true ∨ (selectOperation i s).isolated = true := by
  cases i
  case minuteIncr => exact .inr rfl
  case setIncr => exact .inr rfl
  case evalAlarm => exact .inr rfl
  all_goals exact .inl rfl

/-- A selected operation is enabled. -/
theorem enabledIn_selectOperation (i : Instr) (s : State) : enabledIn i (selectOperation i s) = true := by
  cases i
  case reset => rfl
  case wakeIsr => exact (wakeIsrEnabled_iff _).2 ⟨rfl, rfl, rfl⟩
  case tick => exact (noFault_iff _).2 rfl
  case wakeEdge => exact (noFault_iff _).2 rfl
  case minuteIncr => exact (noFault_iff _).2 rfl
  case setIncr => exact (noFault_iff _).2 rfl
  case evalAlarm => exact (noFault_iff _).2 rfl
  all_goals exact (mainLoopEnabled_iff _ _).2 ⟨rfl, rfl, rfl⟩

/-- The step of a placed word performs its operation in the selected state. -/
theorem step_withFetchWord (s : State) (i : Instr) :
    step (s.withFetchWord 8 (encode i).toNat) = exec i { selectOperation i s with isolated := false } := by
  have hs : (selectOperation i { s with schedule := encode i :: s.schedule }).schedule = encode i :: s.schedule := by
    cases i <;> rfl
  rw [withFetchWord_encode, step_of_decoded hs (decode_encode i) (performedInRun_or_selected i _)]
  cases i <;> rfl

/-- Settles O7: the placed word is fetched, its operation is enabled by the selection, and the selection is written out. -/
theorem everySelectedWordIsPerformedNext : Obligations.EverySelectedWordIsPerformedNext := by
  intro s i u
  have henabled : enabledIn i u = true :=
    (enabledIn_withEnvironment i u (selectOperation i s)).trans (enabledIn_selectOperation i s)
  refine ⟨decodeTableWord_encode i, step_withFetchWord s i, ⟨_, exec_of_enabled henabled⟩, ?_⟩
  cases i <;> rfl

end Sys2Proof.Machine

/-! PROOFS. The statements about digit sets: the minute of day and the increment (41_clock_alarm.md section 1), the digit
codec (40_digit_codec.md), what a position numbers (30_encoding.md section 2). -/

namespace Sys2Proof.Machine

open Sys2Proof

/-! ### The minute of day -/

theorem minuteOfDay_lt {D : DigitSet} (h : D.valid = true) : minuteOfDay D < 1440 := by
  obtain ⟨hmu, hmt, hhu, hht, hhours⟩ := (valid_iff D).1 h
  rw [minuteOfDay]
  omega

/-- The minute of day of a valid digit set determines each of its digits. -/
theorem eq_of_minuteOfDay_eq {D E : DigitSet} (hD : D.valid = true) (hE : E.valid = true)
    (h : minuteOfDay D = minuteOfDay E) : D = E := by
  obtain ⟨hmu, hmt, hhu, hht, hhours⟩ := (valid_iff D).1 hD
  obtain ⟨hmu', hmt', hhu', hht', hhours'⟩ := (valid_iff E).1 hE
  cases D
  cases E
  simp only [minuteOfDay] at h hmu hmt hhu hht hmu' hmt' hhu' hht'
  simp only [DigitSet.mk.injEq, BitVec.toNat_eq]
  omega

/-- The digit set of a minute of day. -/
def digitsOfMinute (n : Nat) : DigitSet where
  minuteUnits := BitVec.ofNat 4 (n % 10)
  minuteTens := BitVec.ofNat 4 (n / 10 % 6)
  hourUnits := BitVec.ofNat 4 (n / 60 % 10)
  hourTens := BitVec.ofNat 4 (n / 600)

theorem digitsOfMinute_valid {n : Nat} (h : n < 1440) : (digitsOfMinute n).valid = true := by
  simp only [valid_iff, digitsOfMinute, BitVec.toNat_ofNat]
  omega

theorem minuteOfDay_digitsOfMinute {n : Nat} (h : n < 1440) : minuteOfDay (digitsOfMinute n) = n := by
  simp only [minuteOfDay, digitsOfMinute, BitVec.toNat_ofNat]
  omega

/-- Settles O10: each digit is a quotient or remainder of the minute, and the minute determines the digits. -/
theorem minuteOfDayIsABijection : Obligations.MinuteOfDayIsABijection :=
  ⟨fun _ => minuteOfDay_lt, fun _ _ hD hE => ⟨congrArg _, eq_of_minuteOfDay_eq hD hE⟩,
    fun n h => ⟨digitsOfMinute n, digitsOfMinute_valid h, minuteOfDay_digitsOfMinute h⟩⟩

/-! ### The increment -/

/-- A carry out of the tens of minutes keeps the number of tens. -/
theorem bcdCarry_five_value {digit : Nat} (next : Nat) (h : digit ≤ 6) :
    6 * (bcdCarry 5 digit next).2 + (bcdCarry 5 digit next).1 = 6 * next + digit := by
  rw [bcdCarry]
  split <;> omega

/-- The increment adds one minute: every carry keeps the value, and the wrap takes a whole day off. -/
theorem minuteOfDay_bcdIncr {D : DigitSet} (h : D.valid = true) :
    minuteOfDay (bcdIncr D) = (minuteOfDay D + 1) % 1440 := by
  obtain ⟨hmu, hmt, hhu, hht, hhours⟩ := (valid_iff D).1 h
  have hday := minuteOfDay_lt h
  simp only [minuteOfDay] at hday ⊢
  simp only [bcdIncr]
  generalize hc0 : bcdCarry 9 (D.minuteUnits.toNat + 1) D.minuteTens.toNat = c0
  generalize hc1 : bcdCarry 5 c0.2 D.hourUnits.toNat = c1
  generalize hc2 : bcdCarry 9 c1.2 D.hourTens.toNat = c2
  have hmu' : c0.1 ≤ 9 := hc0 ▸ bcdCarry_fst_le _ (by omega)
  have hvalue0 : 10 * c0.2 + c0.1 = 10 * D.minuteTens.toNat + (D.minuteUnits.toNat + 1) :=
    hc0 ▸ bcdCarry_nine_value _ (by omega)
  have hmt' : c1.1 ≤ 5 := hc1 ▸ bcdCarry_fst_le _ (by omega)
  have hvalue1 : 6 * c1.2 + c1.1 = 6 * D.hourUnits.toNat + c0.2 := hc1 ▸ bcdCarry_five_value _ (by omega)
  have hhu' : c2.1 ≤ 9 := hc2 ▸ bcdCarry_fst_le _ (by omega)
  have hvalue2 : 10 * c2.2 + c2.1 = 10 * D.hourTens.toNat + c1.2 := hc2 ▸ bcdCarry_nine_value _ (by omega)
  split
  case isTrue hwrap =>
    show 0 = _
    omega
  case isFalse hnowrap =>
    have hhours' : 10 * c2.2 + c2.1 < 24 := by omega
    simp only [BitVec.toNat_ofNat, Nat.mod_eq_of_lt (show c0.1 < 2 ^ 4 by omega),
      Nat.mod_eq_of_lt (show c1.1 < 2 ^ 4 by omega), Nat.mod_eq_of_lt (show c2.1 < 2 ^ 4 by omega),
      Nat.mod_eq_of_lt (show c2.2 < 2 ^ 4 by omega)]
    omega

theorem bcdIncr_iterate_valid {D : DigitSet} (h : D.valid = true) (k : Nat) : (bcdIncr^[k] D).valid = true := by
  induction k with
  | zero => exact h
  | succ k ih =>
    rw [Function.iterate_succ_apply']
    exact bcdIncr_valid ih

theorem minuteOfDay_bcdIncr_iterate {D : DigitSet} (h : D.valid = true) (k : Nat) :
    minuteOfDay (bcdIncr^[k] D) = (minuteOfDay D + k) % 1440 := by
  induction k with
  | zero => exact (Nat.mod_eq_of_lt (minuteOfDay_lt h)).symm
  | succ k ih => rw [Function.iterate_succ_apply', minuteOfDay_bcdIncr (bcdIncr_iterate_valid h k), ih, Nat.mod_add_mod,
      Nat.add_assoc]

/-- Where the increment has come after `k` applications is decided by the minutes. -/
theorem bcdIncr_iterate_eq_iff {D E : DigitSet} (hD : D.valid = true) (hE : E.valid = true) (k : Nat) :
    bcdIncr^[k] D = E ↔ (minuteOfDay D + k) % 1440 = minuteOfDay E := by
  rw [← minuteOfDay_bcdIncr_iterate hD]
  exact ⟨congrArg _, eq_of_minuteOfDay_eq (bcdIncr_iterate_valid hD k) hE⟩

/-- Settles O11: on minutes the increment is the addition of 1 modulo a day. -/
theorem bcdIncrementRunsThroughTheDay : Obligations.BcdIncrementRunsThroughTheDay := by
  intro D hD
  have hday := minuteOfDay_lt hD
  refine ⟨bcdIncr_valid hD, minuteOfDay_bcdIncr hD, ?returns, ?notBefore, ?reaches⟩
  case returns =>
    rw [bcdIncr_iterate_eq_iff hD hD]
    omega
  case notBefore =>
    intro k hpos hlt
    rw [ne_eq, bcdIncr_iterate_eq_iff hD hD]
    omega
  case reaches =>
    intro E hE
    have hdayE := minuteOfDay_lt hE
    refine ⟨(minuteOfDay E + 1440 - minuteOfDay D) % 1440, Nat.mod_lt _ (by decide), ?_, fun j hj h => ?_⟩
    · rw [bcdIncr_iterate_eq_iff hD hE]
      omega
    · rw [bcdIncr_iterate_eq_iff hD hE] at h
      omega

/-! ### The digit codec -/

/-- The table has no entry above 9. -/
theorem encodeDigit_of_gt_nine {d : Digit} (h : 9 < d.toNat) : encodeDigit d = none := by
  rw [encodeDigit, List.getElem?_eq_none]
  exact h

/-- Settles O12: the sixteen entries of the table, those above 9 being empty. -/
theorem digitCodecTable : Obligations.DigitCodecTable := by
  refine ⟨rfl, rfl, rfl, rfl, rfl, rfl, rfl, rfl, rfl, rfl, fun _ => encodeDigit_of_gt_nine, ?notDash, ?onlyEight⟩
  case notDash => decide
  case onlyEight => decide

/-! ### What a position numbers -/

theorem slotOf_slotCode (i : Position) : slotOf (slotCode i) = i :=
  match i with
  | 0 => rfl
  | 1 => rfl
  | 2 => rfl
  | 3 => rfl

theorem shown_of_setting {s : State} (h : s.settingAlarm = true) : shown s = s.alarm := by rw [shown, if_pos h]

theorem shown_of_not_setting {s : State} (h : s.settingAlarm = false) : shown s = s.clock := by
  rw [shown, h]
  rfl

theorem target_of_setting {s : State} (h : s.settingAlarm = true) : target s = .alarm := by rw [target, if_pos h]

theorem target_of_not_setting {s : State} (h : s.settingAlarm = false) : target s = .clock := by
  rw [target, h]
  rfl

/-- Settles O57: each of the four positions, and the two values of Setting. -/
theorem positionsNumberElementsLinesAndButtons : Obligations.PositionsNumberElementsLinesAndButtons :=
  ⟨fun _ => ⟨rfl, rfl, rfl, rfl⟩, rfl, rfl, rfl, rfl, rfl, rfl, rfl, rfl, slotOf_slotCode,
    fun _ => ⟨rfl, rfl, rfl, rfl⟩, rfl, fun _ h => ⟨shown_of_setting h, target_of_setting h⟩,
    fun _ h => ⟨shown_of_not_setting h, target_of_not_setting h⟩, fun _ => ⟨rfl, rfl⟩⟩

end Sys2Proof.Machine

/-! PROOFS. What each operation computes and which registers it may write, said once: the layer the statements about
writers, ticks, faults and the invariant rest on. -/

namespace Sys2Proof.Machine

open Sys2Proof

/-! ### What TICK and DISPATCH leave -/

/-- What the first two steps of TICK leave where neither raises. -/
def tickAdvanced (s : State) : State :=
  { tickBlink s with
    clock := if tickEndsMinute s then bcdIncr s.clock else s.clock
    tickAcc := if tickEndsMinute s then 0 else s.tickAcc + 1 }

theorem tickEndsMinute_iff (s : State) :
    tickEndsMinute s = true ↔ s.params.ticksPerMinute.toNat ≤ s.tickAcc.toNat + 1 :=
  decide_eq_true_iff

/-- A tick within a minute does not look at the clock in step 2. -/
theorem tickAccumulate_tickBlink_of_not_due {s : State} (he : tickEndsMinute s = false) :
    tickAccumulate (tickBlink s) = .completed (tickAdvanced s) := by
  have hn : s.tickAcc.toNat + 1 < s.params.ticksPerMinute.toNat :=
    Nat.not_le.1 (mt (tickEndsMinute_iff s).2 (Bool.eq_false_iff.1 he))
  rw [tickAccumulate_of_not_due (s := tickBlink s) hn, tickAdvanced, he]
  rfl

theorem tickAccumulate_tickBlink_of_valid {s : State} (hc : s.clock.valid = true) :
    tickAccumulate (tickBlink s) = .completed (tickAdvanced s) := by
  cases he : tickEndsMinute s
  · exact tickAccumulate_tickBlink_of_not_due he
  · rw [tickAccumulate_of_due (s := tickBlink s) ((tickEndsMinute_iff s).1 he) hc, tickAdvanced, he]
    rfl

theorem tickAdvanced_clock_valid {s : State} (hc : s.clock.valid = true) : (tickAdvanced s).clock.valid = true := by
  show (if tickEndsMinute s then bcdIncr s.clock else s.clock).valid = true
  split
  · exact bcdIncr_valid hc
  · exact hc

theorem tick_of_valid {s : State} (hc : s.clock.valid = true) (ha : s.alarm.valid = true) :
    tick s = .completed (tickResume (tickCountDown (compareAlarm (tickAdvanced s)))) := by
  rw [tick, tickAccumulate_tickBlink_of_valid hc, completed_andThen,
    evalAlarm_of_valid (tickAdvanced_clock_valid hc) (by exact ha), completed_andThen]

theorem tick_of_invalid_alarm {s : State} (hc : s.clock.valid = true) (ha : s.alarm.valid = false) :
    tick s = .raised (recordFault .alarm .evalAlarm (tickAdvanced s)) := by
  rw [tick, tickAccumulate_tickBlink_of_valid hc, completed_andThen,
    evalAlarm_of_invalid_alarm (tickAdvanced_clock_valid hc) (by exact ha), raised_andThen]

theorem tick_of_invalid_clock_of_due {s : State} (he : tickEndsMinute s = true) (hc : s.clock.valid = false) :
    tick s = .raised (recordFault .clock .minuteIncr (setTickAcc 0 (tickBlink s))) := by
  have hends : tickEndsMinute (tickBlink s) = true := he
  rw [tick, tickAccumulate, if_pos hends, minuteIncr_of_invalid (by exact hc), raised_andThen, raised_andThen]

theorem tick_of_invalid_clock_of_not_due {s : State} (he : tickEndsMinute s = false) (hc : s.clock.valid = false) :
    tick s = .raised (recordFault .clock .evalAlarm (tickAdvanced s)) := by
  have hclock : (tickAdvanced s).clock = s.clock := by
    rw [tickAdvanced, he]
    rfl
  rw [tick, tickAccumulate_tickBlink_of_not_due he, completed_andThen,
    evalAlarm_of_invalid_clock (by rw [hclock, hc]), raised_andThen]

/-- The four outcomes of TICK, by the sets that are valid and by whether it ends a minute. -/
theorem tick_state_cases (s : State) :
    (s.clock.valid = true ∧ s.alarm.valid = true
        ∧ (tick s).state = tickResume (tickCountDown (compareAlarm (tickAdvanced s))))
      ∨ (s.clock.valid = true ∧ s.alarm.valid = false
        ∧ (tick s).state = recordFault .alarm .evalAlarm (tickAdvanced s))
      ∨ (s.clock.valid = false ∧ (tick s).state = recordFault .clock .minuteIncr (setTickAcc 0 (tickBlink s)))
      ∨ (s.clock.valid = false ∧ (tick s).state = recordFault .clock .evalAlarm (tickAdvanced s)) := by
  cases hc : s.clock.valid
  · cases he : tickEndsMinute s
    · exact .inr (.inr (.inr ⟨rfl, by rw [tick_of_invalid_clock_of_not_due he hc, raised_state]⟩))
    · exact .inr (.inr (.inl ⟨rfl, by rw [tick_of_invalid_clock_of_due he hc, raised_state]⟩))
  · cases ha : s.alarm.valid
    · exact .inr (.inl ⟨rfl, rfl, by rw [tick_of_invalid_alarm hc ha, raised_state]⟩)
    · exact .inl ⟨rfl, rfl, by rw [tick_of_valid hc ha, completed_state]⟩

/-- The outcomes of DISPATCH: no code, an active alarm silenced, a press without effect, a toggle of Setting, a call of
SET_INCR that goes on, a call of SET_INCR that raises. -/
theorem dispatch_state_cases (s : State) :
    (s.stable = .none ∧ (dispatch s).state = setPhase 9 s)
      ∨ (alarmActive s = true ∧ (dispatch s).state = setPhase 9 (silence (reloadCountdown s)))
      ∨ (dispatch s).state = setPhase 9 (reloadCountdown s)
      ∨ (dispatch s).state = setPhase 9 (toggleSetting (reloadCountdown s))
      ∨ (∃ r, (digitsOf s (target s)).valid = true
          ∧ (dispatch s).state = setPhase 9 (writeDigits (target s) (digitsAfterSet (target s) r (reloadCountdown s))
              (countSet r (reloadCountdown s))))
      ∨ ((digitsOf s (target s)).valid = false
          ∧ (dispatch s).state = recordFault (target s) .setIncr (reloadCountdown s)) := by
  rcases dispatch_cases s with ⟨hs, h⟩ | ⟨-, ha, h⟩ | ⟨hs, ha, -⟩
  · exact .inl ⟨hs, by rw [h, completed_state]⟩
  · exact .inr (.inl ⟨ha, by rw [h, completed_state]⟩)
  rw [dispatch_of_quiet hs ha]
  rcases pressFunction_cases (acceptedFunction s) (reloadCountdown s) with ⟨hp, -⟩ | ⟨hp, -⟩ | ⟨r, hp, -⟩ <;> rw [hp]
  · exact .inr (.inr (.inl rfl))
  · exact .inr (.inr (.inr (.inl rfl)))
  rw [target_reloadCountdown]
  rcases setIncr_cases (target s) r (reloadCountdown s) with ⟨hv, hset⟩ | ⟨hv, hset⟩ <;>
    rw [digitsOf_reloadCountdown] at hv <;> rw [hset]
  · exact .inr (.inr (.inr (.inr (.inl ⟨r, hv, rfl⟩))))
  · exact .inr (.inr (.inr (.inr (.inr ⟨hv, rfl⟩))))

/-! ### The registers an operation may write -/

/-- The state `s` with the registers that operation `i` may write as they stand in `t`. -/
def withWritesOf (i : Instr) (t s : State) : State :=
  match i with
  | .reset => { withEnvironment s t with params := s.params }
  | .tick =>
    { s with
      clock := t.clock, sounding := t.sounding, silenced := t.silenced, blinkPhase := t.blinkPhase
      countdown := t.countdown, tickAcc := t.tickAcc, idle := t.idle, fault := t.fault }
  | .wakeEdge => { s with wakeFlag := t.wakeFlag }
  | .wakeIsr =>
    { s with
      wakeFlag := t.wakeFlag, wakeIE := t.wakeIE, silenced := t.silenced, asleep := t.asleep
      countdown := t.countdown, idle := t.idle }
  | .strobe _ =>
    { s with
      sweepSig := t.sweepSig, phase := t.phase, ds := t.ds, segsel := t.segsel, trace := t.trace, fault := t.fault
      levels := t.levels, draws := t.draws }
  | .sweepEnd =>
    { s with
      raw := t.raw, sweepSig := t.sweepSig, phase := t.phase, ds := t.ds, trace := t.trace
      levels := t.levels, draws := t.draws }
  | .debounce =>
    { s with
      raw := t.raw, prev := t.prev, stable := t.stable, edge := t.edge, lastStable := t.lastStable, phase := t.phase }
  | .dispatch =>
    { s with
      clock := t.clock, alarm := t.alarm, silenced := t.silenced, blinkPhase := t.blinkPhase
      countdown := t.countdown, settingAlarm := t.settingAlarm, slowCnt := t.slowCnt, phase := t.phase
      fault := t.fault }
  | .autoOff =>
    { s with
      blinkPhase := t.blinkPhase, asleep := t.asleep, settingAlarm := t.settingAlarm, wakeIE := t.wakeIE
      phase := t.phase }
  | .alarmService =>
    { s with blinkPhase := t.blinkPhase, asleep := t.asleep, settingAlarm := t.settingAlarm, phase := t.phase }
  | .idleCheck => { s with phase := t.phase, idle := t.idle }
  | .minuteIncr => { s with clock := t.clock, fault := t.fault }
  | .setIncr d r =>
    { s with
      clock := if d = .clock then t.clock else s.clock
      alarm := if d = .alarm then t.alarm else s.alarm
      slowCnt := if r = .slow then t.slowCnt else s.slowCnt
      fault := t.fault }
  | .evalAlarm => { s with sounding := t.sounding, silenced := t.silenced, fault := t.fault }

theorem autoOff_cases (s : State) :
    (sleepDue s = true ∧ autoOff s = setPhase 0 (enterSleep s)) ∨ (sleepDue s = false ∧ autoOff s = setPhase 0 s) := by
  cases h : sleepDue s
  · exact .inr ⟨rfl, autoOff_of_not_due (Bool.eq_false_iff.1 h)⟩
  · exact .inl ⟨rfl, autoOff_of_due h⟩

theorem alarmService_cases (s : State) :
    (alarmActive s = true ∧ alarmService s = setPhase 1 (showAlarm s))
      ∨ (alarmActive s = false ∧ alarmService s = setPhase 1 s) := by
  cases h : alarmActive s
  · exact .inr ⟨rfl, alarmService_of_quiet h⟩
  · exact .inl ⟨rfl, alarmService_of_active h⟩

theorem idleCheck_cases (s : State) :
    (s.asleep = true ∧ alarmActive s = false ∧ idleCheck s = setPhase 0 (beginIdle s))
      ∨ (s.asleep = true ∧ alarmActive s = true ∧ idleCheck s = setPhase 0 s)
      ∨ (s.asleep = false ∧ idleCheck s = setPhase 2 s) := by
  cases hs : s.asleep
  · exact .inr (.inr ⟨rfl, idleCheck_of_awake hs⟩)
  · cases ha : alarmActive s
    · exact .inl ⟨rfl, rfl, idleCheck_of_quiet hs ha⟩
    · exact .inr (.inl ⟨rfl, rfl, idleCheck_of_active hs ha⟩)

theorem wakeEdge_cases (s : State) : wakeEdge s = setWakePending s ∨ wakeEdge s = s := by
  rw [wakeEdge]
  split
  · exact .inl rfl
  · exact .inr rfl

/-- An operation writes no register but its own. -/
theorem stateAfter_eq_withWritesOf (i : Instr) (s : State) :
    stateAfter i s = withWritesOf i (stateAfter i s) s := by
  cases i
  case reset => rcases minuteIncr_cases (resetRegisters s) with ⟨-, h⟩ | ⟨-, h⟩ <;> rw [stateAfter, h] <;> rfl
  case tick =>
    rcases tick_state_cases s with ⟨-, -, h⟩ | ⟨-, -, h⟩ | ⟨-, h⟩ | ⟨-, h⟩ <;> rw [stateAfter, h] <;> rfl
  case wakeEdge => rcases wakeEdge_cases s with h | h <;> rw [stateAfter, h] <;> rfl
  case strobe p => rcases strobe_cases p s with ⟨-, m, -, h⟩ | ⟨-, h⟩ <;> rw [stateAfter, h] <;> rfl
  case dispatch =>
    rcases dispatch_state_cases s with ⟨-, h⟩ | ⟨-, h⟩ | h | h | ⟨r, -, h⟩ | ⟨-, h⟩ <;> rw [stateAfter, h]
    case inr.inr.inr.inr.inl => cases target s <;> rfl
    all_goals rfl
  case autoOff => rcases autoOff_cases s with ⟨-, h⟩ | ⟨-, h⟩ <;> rw [stateAfter, h] <;> rfl
  case alarmService => rcases alarmService_cases s with ⟨-, h⟩ | ⟨-, h⟩ <;> rw [stateAfter, h] <;> rfl
  case idleCheck => rcases idleCheck_cases s with ⟨-, -, h⟩ | ⟨-, -, h⟩ | ⟨-, h⟩ <;> rw [stateAfter, h] <;> rfl
  case minuteIncr => rcases minuteIncr_cases s with ⟨-, h⟩ | ⟨-, h⟩ <;> rw [stateAfter, h] <;> rfl
  case setIncr d r =>
    rcases setIncr_cases d r s with ⟨-, h⟩ | ⟨-, h⟩ <;> rw [stateAfter, h] <;> cases d <;> cases r <;> rfl
  case evalAlarm =>
    rcases evalAlarm_cases s with ⟨-, -, h⟩ | ⟨-, h⟩ | ⟨-, -, h⟩ <;> rw [stateAfter, h] <;> rfl
  case wakeIsr => rfl
  case sweepEnd => rfl
  case debounce => rfl

end Sys2Proof.Machine

/-! PROOFS. The statements about writers: 10_state.md sections 1 and 3, 44_debounce_mode.md section 1, 60_exceptions.md
section 4, 70_reset_and_hazards.md section 3 (tearing). -/

namespace Sys2Proof.Machine

open Sys2Proof

/-! ### The values the controller leaves in the mode flags -/

theorem autoOff_asleep (s : State) : (autoOff s).asleep = (s.asleep || sleepDue s) := by
  rcases autoOff_cases s with ⟨hd, h⟩ | ⟨hd, h⟩ <;> simp [h, hd]

theorem autoOff_settingAlarm (s : State) : (autoOff s).settingAlarm = (s.settingAlarm && !sleepDue s) := by
  rcases autoOff_cases s with ⟨hd, h⟩ | ⟨hd, h⟩ <;> simp [h, hd]

theorem autoOff_wakeIE (s : State) : (autoOff s).wakeIE = (s.wakeIE || sleepDue s) := by
  rcases autoOff_cases s with ⟨hd, h⟩ | ⟨hd, h⟩ <;> simp [h, hd]

theorem alarmService_asleep (s : State) : (alarmService s).asleep = (s.asleep && !alarmActive s) := by
  rcases alarmService_cases s with ⟨ha, h⟩ | ⟨ha, h⟩ <;> simp [h, ha]

theorem alarmService_settingAlarm (s : State) :
    (alarmService s).settingAlarm = (s.settingAlarm && !alarmActive s) := by
  rcases alarmService_cases s with ⟨ha, h⟩ | ⟨ha, h⟩ <;> simp [h, ha]

theorem idleCheck_idle (s : State) : (idleCheck s).idle = (s.idle || (s.asleep && !alarmActive s)) := by
  rcases idleCheck_cases s with ⟨hs, ha, h⟩ | ⟨hs, ha, h⟩ | ⟨hs, h⟩ <;> simp [*]

/-- A tick ends the idle wait, or leaves it where it raises. -/
theorem idle_of_tick_idle {s : State} (hi : (tick s).state.idle = true) : s.idle = true := by
  rcases tick_state_cases s with ⟨-, -, h⟩ | ⟨-, -, h⟩ | ⟨-, h⟩ | ⟨-, h⟩ <;> rw [h] at hi
  · cases hi
  all_goals exact hi

theorem evalAlarm_silenced {s : State} (hs : (evalAlarm s).state.silenced = true) : s.silenced = true := by
  rcases evalAlarm_cases s with ⟨-, -, h⟩ | ⟨-, h⟩ | ⟨-, -, h⟩ <;> rw [h] at hs
  · exact (Bool.and_eq_true_iff.1 hs).1
  all_goals exact hs

/-- The comparison of a tick silences nothing. -/
theorem tick_silenced {s : State} (hs : (tick s).state.silenced = true) : s.silenced = true := by
  rcases tick_state_cases s with ⟨-, -, h⟩ | ⟨-, -, h⟩ | ⟨-, h⟩ | ⟨-, h⟩ <;> rw [h] at hs
  · exact (Bool.and_eq_true_iff.1 hs).1
  all_goals exact hs

/-- DISPATCH keeps `silenced`, or silences an active alarm. -/
theorem dispatch_silenced_cases (s : State) :
    (dispatch s).state.silenced = s.silenced
      ∨ (alarmActive s = true ∧ (dispatch s).state.silenced = true) := by
  rcases dispatch_state_cases s with ⟨-, h⟩ | ⟨ha, h⟩ | h | h | ⟨r, -, h⟩ | ⟨-, h⟩ <;> simp [*]

/-- DISPATCH keeps the digit set that Setting does not select. -/
theorem dispatch_digitsOf_of_ne {s : State} {d : Target} (hd : target s ≠ d) :
    digitsOf (dispatch s).state d = digitsOf s d := by
  rcases dispatch_state_cases s with ⟨-, h⟩ | ⟨-, h⟩ | h | h | ⟨r, -, h⟩ | ⟨-, h⟩ <;> rw [h]
  case inr.inr.inr.inr.inl =>
    generalize target s = e at hd
    cases d <;> cases e
    case clock.alarm => rfl
    case alarm.clock => rfl
    all_goals exact absurd rfl hd
  all_goals cases d <;> rfl

/-! ### The writers of each register, RESET apart -/

section Writers

variable {i : Instr} {s : State}

theorem sounding_writers (hi : i ≠ .reset) (h : (stateAfter i s).sounding ≠ s.sounding) :
    i = .tick ∨ i = .evalAlarm := by
  rw [stateAfter_eq_withWritesOf] at h
  cases i <;> simp [withWritesOf] at hi h ⊢

theorem silenced_writers (hi : i ≠ .reset) (h : (stateAfter i s).silenced ≠ s.silenced) :
    i = .tick ∨ i = .evalAlarm ∨ i = .dispatch ∨ i = .wakeIsr := by
  rw [stateAfter_eq_withWritesOf] at h
  cases i <;> simp [withWritesOf] at hi h ⊢

theorem blinkPhase_writers (hi : i ≠ .reset) (h : (stateAfter i s).blinkPhase ≠ s.blinkPhase) :
    i = .tick ∨ i = .dispatch ∨ i = .alarmService ∨ i = .autoOff := by
  rw [stateAfter_eq_withWritesOf] at h
  cases i <;> simp [withWritesOf] at hi h ⊢

theorem asleep_writers (hi : i ≠ .reset) (h : (stateAfter i s).asleep ≠ s.asleep) :
    i = .wakeIsr ∨ i = .alarmService ∨ i = .autoOff := by
  rw [stateAfter_eq_withWritesOf] at h
  cases i <;> simp [withWritesOf] at hi h ⊢

theorem settingAlarm_writers (hi : i ≠ .reset) (h : (stateAfter i s).settingAlarm ≠ s.settingAlarm) :
    i = .dispatch ∨ i = .alarmService ∨ i = .autoOff := by
  rw [stateAfter_eq_withWritesOf] at h
  cases i <;> simp [withWritesOf] at hi h ⊢

theorem wakeIE_writers (hi : i ≠ .reset) (h : (stateAfter i s).wakeIE ≠ s.wakeIE) :
    i = .wakeIsr ∨ i = .autoOff := by
  rw [stateAfter_eq_withWritesOf] at h
  cases i <;> simp [withWritesOf] at hi h ⊢

theorem wakeFlag_writers (hi : i ≠ .reset) (h : (stateAfter i s).wakeFlag ≠ s.wakeFlag) :
    i = .wakeEdge ∨ i = .wakeIsr := by
  rw [stateAfter_eq_withWritesOf] at h
  cases i <;> simp [withWritesOf] at hi h ⊢

theorem idle_writers (hi : i ≠ .reset) (h : (stateAfter i s).idle ≠ s.idle) :
    i = .tick ∨ i = .wakeIsr ∨ i = .idleCheck := by
  rw [stateAfter_eq_withWritesOf] at h
  cases i <;> simp [withWritesOf] at hi h ⊢

theorem edge_writers (hi : i ≠ .reset) (h : (stateAfter i s).edge ≠ s.edge) : i = .debounce := by
  rw [stateAfter_eq_withWritesOf] at h
  cases i <;> simp [withWritesOf] at hi h ⊢

theorem countdown_writers (hi : i ≠ .reset) (h : (stateAfter i s).countdown ≠ s.countdown) :
    i = .tick ∨ i = .dispatch ∨ i = .wakeIsr := by
  rw [stateAfter_eq_withWritesOf] at h
  cases i <;> simp [withWritesOf] at hi h ⊢

theorem tickAcc_writers (hi : i ≠ .reset) (h : (stateAfter i s).tickAcc ≠ s.tickAcc) : i = .tick := by
  rw [stateAfter_eq_withWritesOf] at h
  cases i <;> simp [withWritesOf] at hi h ⊢

theorem slowCnt_writers (hi : i ≠ .reset) (h : (stateAfter i s).slowCnt ≠ s.slowCnt) :
    i = .dispatch ∨ ∃ d, i = .setIncr d .slow := by
  rw [stateAfter_eq_withWritesOf] at h
  cases i <;> simp [withWritesOf] at hi h ⊢
  case setIncr => exact h.1

theorem phase_writers (hi : i ≠ .reset) (h : (stateAfter i s).phase ≠ s.phase) : agentOf i = .mainLoop := by
  rw [stateAfter_eq_withWritesOf] at h
  cases i <;> simp [withWritesOf, agentOf] at hi h ⊢

theorem clock_writers (hi : i ≠ .reset) (h : (stateAfter i s).clock ≠ s.clock) :
    i = .tick ∨ i = .dispatch ∨ i = .minuteIncr ∨ ∃ f, i = .setIncr .clock f := by
  rw [stateAfter_eq_withWritesOf] at h
  cases i <;> simp [withWritesOf] at hi h ⊢
  case setIncr => exact h.1

theorem alarm_writers (hi : i ≠ .reset) (h : (stateAfter i s).alarm ≠ s.alarm) :
    i = .dispatch ∨ ∃ f, i = .setIncr .alarm f := by
  rw [stateAfter_eq_withWritesOf] at h
  cases i <;> simp [withWritesOf] at hi h ⊢
  case setIncr => exact h.1

theorem raw_writers (hi : i ≠ .reset) (h : (stateAfter i s).raw ≠ s.raw) : i = .sweepEnd ∨ i = .debounce := by
  rw [stateAfter_eq_withWritesOf] at h
  cases i <;> simp [withWritesOf] at hi h ⊢

theorem sweepSig_writers (hi : i ≠ .reset) (h : (stateAfter i s).sweepSig ≠ s.sweepSig) :
    i = .sweepEnd ∨ ∃ p, i = .strobe p := by
  rw [stateAfter_eq_withWritesOf] at h
  cases i <;> simp [withWritesOf] at hi h ⊢

/-- The filter's registers: the samples and codes of this pass and the one before. -/
theorem filter_writers (hi : i ≠ .reset)
    (h : (stateAfter i s).prev ≠ s.prev ∨ (stateAfter i s).stable ≠ s.stable
      ∨ (stateAfter i s).lastStable ≠ s.lastStable) : i = .debounce := by
  rw [stateAfter_eq_withWritesOf] at h
  cases i <;> simp [withWritesOf] at hi h ⊢

theorem pin_writers (hi : i ≠ .reset)
    (h : (stateAfter i s).ds ≠ s.ds ∨ (stateAfter i s).segsel ≠ s.segsel ∨ (stateAfter i s).trace ≠ s.trace) :
    i = .sweepEnd ∨ ∃ p, i = .strobe p := by
  rw [stateAfter_eq_withWritesOf] at h
  cases i <;> simp [withWritesOf] at hi h ⊢

/-! ### The direction of a flag's change -/

theorem silenced_raised (hi : i ≠ .reset) (ht : (stateAfter i s).silenced = true) (hs : s.silenced = false) :
    (i = .dispatch ∨ i = .wakeIsr) ∧ alarmActive s = true := by
  rcases silenced_writers (s := s) hi (by simp [ht, hs]) with rfl | rfl | rfl | rfl
  · simp [tick_silenced ht] at hs
  · simp [evalAlarm_silenced ht] at hs
  · rcases dispatch_silenced_cases s with h | ⟨ha, -⟩
    · exact absurd (h.symm.trans ht) (by simp [hs])
    · exact ⟨.inl rfl, ha⟩
  · exact ⟨.inr rfl, by simpa [stateAfter, hs] using ht⟩

theorem silenced_cleared (hi : i ≠ .reset) (ht : (stateAfter i s).silenced = false) (hs : s.silenced = true) :
    i = .tick ∨ i = .evalAlarm := by
  rcases silenced_writers (s := s) hi (by simp [ht, hs]) with rfl | rfl | rfl | rfl
  · exact .inl rfl
  · exact .inr rfl
  · rcases dispatch_silenced_cases s with h | ⟨-, h⟩ <;> exact absurd (h.symm.trans ht) (by simp [hs])
  · simp [stateAfter, hs] at ht

theorem asleep_raised (hi : i ≠ .reset) (ht : (stateAfter i s).asleep = true) (hs : s.asleep = false) :
    i = .autoOff := by
  rcases asleep_writers (s := s) hi (by simp [ht, hs]) with rfl | rfl | rfl
  · simp [stateAfter] at ht
  · simp [stateAfter, alarmService_asleep, hs] at ht
  · rfl

theorem asleep_cleared (hi : i ≠ .reset) (ht : (stateAfter i s).asleep = false) (hs : s.asleep = true) :
    i = .wakeIsr ∨ i = .alarmService := by
  rcases asleep_writers (s := s) hi (by simp [ht, hs]) with rfl | rfl | rfl
  · exact .inl rfl
  · exact .inr rfl
  · simp [stateAfter, autoOff_asleep, hs] at ht

theorem settingAlarm_changed (hi : i ≠ .reset) (h : (stateAfter i s).settingAlarm ≠ s.settingAlarm) :
    i = .dispatch ∨ ((i = .alarmService ∨ i = .autoOff) ∧ (stateAfter i s).settingAlarm = false) := by
  rcases settingAlarm_writers hi h with rfl | rfl | rfl
  · exact .inl rfl
  · refine .inr ⟨.inl rfl, ?_⟩
    simp only [stateAfter, alarmService_settingAlarm] at h ⊢
    cases hs : s.settingAlarm <;> simp_all
  · refine .inr ⟨.inr rfl, ?_⟩
    simp only [stateAfter, autoOff_settingAlarm] at h ⊢
    cases hs : s.settingAlarm <;> simp_all

theorem wakeIE_raised (hi : i ≠ .reset) (ht : (stateAfter i s).wakeIE = true) (hs : s.wakeIE = false) :
    i = .autoOff := by
  rcases wakeIE_writers (s := s) hi (by simp [ht, hs]) with rfl | rfl
  · simp [stateAfter] at ht
  · rfl

theorem wakeIE_cleared (hi : i ≠ .reset) (ht : (stateAfter i s).wakeIE = false) (hs : s.wakeIE = true) :
    i = .wakeIsr := by
  rcases wakeIE_writers (s := s) hi (by simp [ht, hs]) with rfl | rfl
  · rfl
  · simp [stateAfter, autoOff_wakeIE, hs] at ht

theorem wakeFlag_raised (hi : i ≠ .reset) (ht : (stateAfter i s).wakeFlag = true) (hs : s.wakeFlag = false) :
    i = .wakeEdge := by
  rcases wakeFlag_writers (s := s) hi (by simp [ht, hs]) with rfl | rfl
  · rfl
  · simp [stateAfter] at ht

theorem wakeFlag_cleared (hi : i ≠ .reset) (ht : (stateAfter i s).wakeFlag = false) (hs : s.wakeFlag = true) :
    i = .wakeIsr := by
  rcases wakeFlag_writers (s := s) hi (by simp [ht, hs]) with rfl | rfl
  · rcases wakeEdge_cases s with h | h <;> simp [stateAfter, h, hs] at ht
  · rfl

theorem idle_raised (hi : i ≠ .reset) (ht : (stateAfter i s).idle = true) (hs : s.idle = false) : i = .idleCheck := by
  rcases idle_writers (s := s) hi (by simp [ht, hs]) with rfl | rfl | rfl
  · simp [idle_of_tick_idle ht] at hs
  · simp [stateAfter] at ht
  · rfl

theorem idle_cleared (hi : i ≠ .reset) (ht : (stateAfter i s).idle = false) (hs : s.idle = true) :
    i = .tick ∨ i = .wakeIsr := by
  rcases idle_writers (s := s) hi (by simp [ht, hs]) with rfl | rfl | rfl
  · exact .inl rfl
  · exact .inr rfl
  · simp [stateAfter, idleCheck_idle, hs] at ht

end Writers

/-- Settles O45: the frame of each operation, with the direction in which it moves each of its flags. -/
theorem flagsChangeOnlyInTheirWriters : Obligations.FlagsChangeOnlyInTheirWriters := by
  intro i s t hi h
  obtain ⟨-, rfl⟩ := (exec_next_iff i s t).1 h
  exact ⟨sounding_writers hi, silenced_raised hi, silenced_cleared hi, blinkPhase_writers hi, asleep_raised hi,
    asleep_cleared hi, settingAlarm_changed hi, wakeIE_raised hi, wakeIE_cleared hi, wakeFlag_raised hi,
    wakeFlag_cleared hi, idle_raised hi, idle_cleared hi, edge_writers hi, countdown_writers hi, tickAcc_writers hi,
    slowCnt_writers hi, phase_writers hi⟩

/-- Settles O46: the frame of each operation; DISPATCH writes the digit set that Setting selects, DEBOUNCE replaces the
sentinel alone. -/
theorem registersChangeOnlyInTheirWriters : Obligations.RegistersChangeOnlyInTheirWriters := by
  intro i s t hi h
  obtain ⟨-, rfl⟩ := (exec_next_iff i s t).1 h
  refine ⟨fun hc => ?clock, fun ha => ?alarm, slowCnt_writers hi, fun hr => ?raw, sweepSig_writers hi,
    filter_writers hi, pin_writers hi⟩
  case clock =>
    rcases clock_writers hi hc with rfl | rfl | rfl | hset
    · exact .inl rfl
    · exact .inr (.inl ⟨rfl, not_not.1 fun hd => hc (dispatch_digitsOf_of_ne (d := .clock) hd)⟩)
    · exact .inr (.inr (.inl rfl))
    · exact .inr (.inr (.inr hset))
  case alarm =>
    rcases alarm_writers hi ha with rfl | hset
    · exact .inl ⟨rfl, not_not.1 fun hd => ha (dispatch_digitsOf_of_ne (d := .alarm) hd)⟩
    · exact .inr hset
  case raw =>
    rcases raw_writers hi hr with rfl | rfl
    · exact .inl rfl
    · rw [stateAfter, debounce_raw, debounceSample] at hr ⊢
      by_cases hall : s.raw = .all
      · exact .inr ⟨rfl, hall, if_pos hall⟩
      · exact absurd (if_neg hall) hr

/-- Settles O43: none of these registers is written by TICK or WAKE_ISR. -/
theorem interruptsLeaveTheMainLoopAlone : Obligations.InterruptsLeaveTheMainLoopAlone := by
  intro i s t hi h
  obtain ⟨-, rfl⟩ := (exec_next_iff i s t).1 h
  rw [stateAfter_eq_withWritesOf]
  rcases hi with rfl | rfl <;> exact ⟨rfl, rfl, rfl, rfl, rfl, rfl, rfl, rfl, rfl, rfl, rfl, rfl⟩

/-! ### Tearing -/

/-- The operations of a run that may come between the operations of a sweep. -/
theorem enabledIn_during_sweep {i : Instr} {s : State} (hlow : 2 ≤ s.phase.toNat) (hhigh : s.phase.toNat ≤ 6)
    (hrun : i.performedInRun = true) (he : enabledIn i s = true) :
    i = .reset ∨ i = .tick ∨ i = .wakeEdge ∨ i = .wakeIsr ∨ i = .sweepEnd ∨ ∃ p, i = .strobe p := by
  have notAtPhase {j : Instr} {p : BitVec 4} (hp : phaseOf j = some p) (hout : p.toNat < 2 ∨ 6 < p.toNat) :
      enabledIn j s ≠ true := by
    rw [enabledIn_of_phaseOf hp, ne_eq, mainLoopEnabled_iff]
    rintro ⟨-, -, rfl⟩
    omega
  cases i
  case debounce => exact absurd he (notAtPhase rfl (by decide))
  case dispatch => exact absurd he (notAtPhase rfl (by decide))
  case autoOff => exact absurd he (notAtPhase rfl (by decide))
  case alarmService => exact absurd he (notAtPhase rfl (by decide))
  case idleCheck => exact absurd he (notAtPhase rfl (by decide))
  case minuteIncr => cases hrun
  case setIncr => cases hrun
  case evalAlarm => cases hrun
  all_goals simp

/-- Settles O27: the operations enabled inside a sweep, TICK apart, do not write what the display shows. -/
theorem onlyATickTearsASweep : Obligations.OnlyATickTearsASweep := by
  intro s t i hlow hhigh hrun hreset htick h
  obtain ⟨he, rfl⟩ := (exec_next_iff i s t).1 h
  rw [stateAfter_eq_withWritesOf]
  rcases enabledIn_during_sweep hlow hhigh hrun he with rfl | rfl | rfl | rfl | rfl | ⟨p, rfl⟩
  · exact absurd rfl hreset
  · exact absurd rfl htick
  all_goals exact ⟨rfl, rfl, rfl, rfl⟩

/-! ### Sleeping -/

theorem effMode_eq_alarmSounding_iff (s : State) : effMode s = .alarmSounding ↔ alarmActive s = true := by
  cases ha : alarmActive s
  · cases hs : s.asleep <;> cases hset : s.settingAlarm <;> simp [effMode, ha, hs, hset]
  · simp [effMode, ha]

theorem effMode_of_asleep {s : State} (ha : alarmActive s = false) (hs : s.asleep = true) : effMode s = .sleeping := by
  rw [effMode, ha, hs]
  rfl

/-- Settles O47: the writers of `asleep` in each direction, and what their tests say of the state. -/
theorem sleepingIsEnteredAndLeftAsNamed : Obligations.SleepingIsEnteredAndLeftAsNamed := by
  intro i s t hi h
  obtain ⟨-, rfl⟩ := (exec_next_iff i s t).1 h
  refine ⟨fun hs ht => ?left, fun hs ht => ?entered⟩
  case left =>
    rcases asleep_cleared hi ht hs with rfl | rfl
    · exact .inl ⟨rfl, rfl⟩
    · rcases alarmService_cases s with ⟨ha, hserved⟩ | ⟨-, hserved⟩
      · exact .inr ⟨rfl, (effMode_eq_alarmSounding_iff s).2 ha,
          (effMode_eq_alarmSounding_iff _).2 (by rw [stateAfter, hserved]; exact ha)⟩
      · rw [stateAfter, hserved] at ht
        exact absurd (hs.symm.trans ht) (by decide)
  case entered =>
    obtain rfl := asleep_raised hi ht hs
    rcases autoOff_cases s with ⟨hdue, hoff⟩ | ⟨-, hoff⟩ <;> rw [stateAfter, hoff] at ht
    · obtain ⟨-, hzero, hquiet⟩ := (sleepDue_iff s).1 hdue
      have ha : alarmActive s = false := (alarmActive_eq_false_iff s).2 hquiet
      rw [stateAfter, hoff]
      exact ⟨rfl, hzero, by simp [effMode_eq_alarmSounding_iff, ha], rfl, effMode_of_asleep ha rfl⟩
    · exact absurd (hs.symm.trans ht) (by decide)

end Sys2Proof.Machine

/-! PROOFS. The environment's fields beside the operations that read no pin (20_memory.md section 2). -/

namespace Sys2Proof.Machine

open Sys2Proof

/-! ### Updates an operation neither reads nor writes, in sequence and in choice -/

/-- A choice by a test that does not see an update commutes with it when both its sides do. -/
theorem commutesWith_ite {g : State → State} {c : State → Prop} [DecidablePred c] {F G : State → Effect}
    (hc : ∀ s, c (g s) ↔ c s) (hF : CommutesWith g F) (hG : CommutesWith g G) :
    CommutesWith g fun s => if c s then F s else G s := by
  intro s
  by_cases h : c s
  · simp only [if_pos h, if_pos ((hc s).2 h)]
    exact hF s
  · simp only [if_neg h, if_neg (mt (hc s).1 h)]
    exact hG s

theorem state_of_commutesWith {g : State → State} {F : State → Effect} (h : CommutesWith g F) (s : State) :
    (F (g s)).state = g (F s).state := by
  rw [h s, mapState_state]

/-! ### Operations that do not depend on the environment's fields -/

section Environment

variable (v : State)

theorem commutesWith_withEnvironment_checkDigits (t : Target) (op : Raiser) :
    CommutesWith (withEnvironment v) (checkDigits t op) :=
  commutesWith_checkDigits t op (fun _ => by cases t <;> rfl) fun _ => rfl

theorem commutesWith_withEnvironment_minuteIncr : CommutesWith (withEnvironment v) minuteIncr :=
  commutesWith_andThen (commutesWith_withEnvironment_checkDigits v _ _) (commutesWith_completed fun _ => rfl)

theorem commutesWith_withEnvironment_setIncr (t : Target) (r : Rate) :
    CommutesWith (withEnvironment v) (setIncr t r) :=
  commutesWith_andThen (commutesWith_withEnvironment_checkDigits v _ _)
    (commutesWith_completed fun s => by cases t <;> cases r <;> rfl)

theorem commutesWith_withEnvironment_evalAlarm : CommutesWith (withEnvironment v) evalAlarm :=
  commutesWith_andThen (commutesWith_withEnvironment_checkDigits v _ _)
    (commutesWith_andThen (commutesWith_withEnvironment_checkDigits v _ _) (commutesWith_completed fun _ => rfl))

theorem commutesWith_withEnvironment_tickAccumulate : CommutesWith (withEnvironment v) tickAccumulate :=
  commutesWith_ite (c := fun s => tickEndsMinute s = true) (fun _ => Iff.rfl)
    (fun s => commutesWith_withEnvironment_minuteIncr v (setTickAcc 0 s)) (commutesWith_completed fun _ => rfl)

theorem commutesWith_withEnvironment_tick : CommutesWith (withEnvironment v) tick :=
  commutesWith_andThen
    (commutesWith_andThen (fun s => commutesWith_withEnvironment_tickAccumulate v (tickBlink s))
      (commutesWith_withEnvironment_evalAlarm v))
    (commutesWith_completed fun _ => rfl)

theorem modePress_withEnvironment (s : State) :
    modePress (withEnvironment v s) = withEnvironment v (modePress s) := by
  rw [modePress, modePress, apply_ite (withEnvironment v)]
  rfl

theorem commutesWith_withEnvironment_pressFunction (b : ButtonFunction) :
    CommutesWith (withEnvironment v) (pressFunction b) := by
  cases b
  case mode => exact commutesWith_completed (modePress_withEnvironment v)
  case slow => exact fun s => commutesWith_withEnvironment_setIncr v (target s) .slow s
  case fast => exact fun s => commutesWith_withEnvironment_setIncr v (target s) .fast s
  case nofunc => exact fun _ => rfl

theorem commutesWith_withEnvironment_pressEffect : CommutesWith (withEnvironment v) pressEffect :=
  commutesWith_ite (c := fun s => alarmActive s = true) (fun _ => Iff.rfl) (commutesWith_completed fun _ => rfl)
    fun s => commutesWith_withEnvironment_pressFunction v _ s

theorem commutesWith_withEnvironment_dispatch : CommutesWith (withEnvironment v) dispatch :=
  commutesWith_andThen
    (commutesWith_ite (c := fun s => s.stable = .none) (fun _ => Iff.rfl) (fun _ => rfl)
      fun s => commutesWith_withEnvironment_pressEffect v (reloadCountdown s))
    (commutesWith_completed fun _ => rfl)

theorem wakeEdge_withEnvironment (s : State) : wakeEdge (withEnvironment v s) = withEnvironment v (wakeEdge s) := by
  rw [wakeEdge, wakeEdge, apply_ite (withEnvironment v)]
  rfl

theorem autoOff_withEnvironment (s : State) : autoOff (withEnvironment v s) = withEnvironment v (autoOff s) := by
  rcases autoOff_cases s with ⟨hd, h⟩ | ⟨hd, h⟩ <;> rw [h]
  · exact autoOff_of_due hd
  · exact autoOff_of_not_due (s := withEnvironment v s) (Bool.eq_false_iff.1 hd)

theorem alarmService_withEnvironment (s : State) :
    alarmService (withEnvironment v s) = withEnvironment v (alarmService s) := by
  rcases alarmService_cases s with ⟨ha, h⟩ | ⟨ha, h⟩ <;> rw [h]
  · exact alarmService_of_active ha
  · exact alarmService_of_quiet (s := withEnvironment v s) ha

theorem idleCheck_withEnvironment (s : State) : idleCheck (withEnvironment v s) = withEnvironment v (idleCheck s) := by
  rcases idleCheck_cases s with ⟨hs, ha, h⟩ | ⟨hs, ha, h⟩ | ⟨hs, h⟩ <;> rw [h]
  · exact idleCheck_of_quiet (s := withEnvironment v s) hs ha
  · exact idleCheck_of_active (s := withEnvironment v s) hs ha
  · exact idleCheck_of_awake (s := withEnvironment v s) hs

/-- An operation that reads no pin computes the same whatever the environment's fields hold. -/
theorem stateAfter_withEnvironment {i : Instr} (hpin : pinRead i = none) (s : State) :
    stateAfter i (withEnvironment v s) = withEnvironment v (stateAfter i s) := by
  cases i
  case reset => exact state_of_commutesWith (commutesWith_withEnvironment_minuteIncr v) (resetRegisters s)
  case tick => exact state_of_commutesWith (commutesWith_withEnvironment_tick v) s
  case wakeEdge => exact wakeEdge_withEnvironment v s
  case wakeIsr => rfl
  case strobe => cases hpin
  case sweepEnd => cases hpin
  case debounce => rfl
  case dispatch => exact state_of_commutesWith (commutesWith_withEnvironment_dispatch v) s
  case autoOff => exact autoOff_withEnvironment v s
  case alarmService => exact alarmService_withEnvironment v s
  case idleCheck => exact idleCheck_withEnvironment v s
  case minuteIncr => exact state_of_commutesWith (commutesWith_withEnvironment_minuteIncr v) s
  case setIncr t r => exact state_of_commutesWith (commutesWith_withEnvironment_setIncr v t r) s
  case evalAlarm => exact state_of_commutesWith (commutesWith_withEnvironment_evalAlarm v) s

end Environment

/-! ### What no operation writes -/

@[simp] theorem stateAfter_params (i : Instr) (s : State) : (stateAfter i s).params = s.params := by
  rw [stateAfter_eq_withWritesOf]
  cases i <;> rfl

@[simp] theorem stateAfter_schedule (i : Instr) (s : State) : (stateAfter i s).schedule = s.schedule := by
  rw [stateAfter_eq_withWritesOf]
  cases i <;> rfl

@[simp] theorem stateAfter_isolated (i : Instr) (s : State) : (stateAfter i s).isolated = s.isolated := by
  rw [stateAfter_eq_withWritesOf]
  cases i <;> rfl

theorem pinRead_of_ne {i : Instr} (hstrobe : ∀ p, i ≠ .strobe p) (hend : i ≠ .sweepEnd) : pinRead i = none := by
  cases i
  case strobe p => exact absurd rfl (hstrobe p)
  case sweepEnd => exact absurd rfl hend
  all_goals rfl

/-- Settles O48: such an operation commutes with a change of the environment's fields, and keeps the schedule and the
isolation mark. -/
theorem pinsReachOnlyStrobeAndSweepEnd : Obligations.PinsReachOnlyStrobeAndSweepEnd := by
  intro i s levels draws hstrobe hend
  let v : State := { s with levels := levels, draws := draws }
  have hcommutes : exec i (withEnvironment v s) = mapNext (withEnvironment v) (exec i s) :=
    exec_commute (enabledIn_withEnvironment i v s) (stateAfter_withEnvironment v (pinRead_of_ne hstrobe hend) s)
  refine hcommutes.trans ?_
  rw [exec_eq_performIf]
  cases enabledIn i s
  · rfl
  · simp only [performIf_true, mapNext, withEnvironment, v, ← stateAfter_schedule i s, ← stateAfter_isolated i s]

end Sys2Proof.Machine

/-! PROOFS. The statements about ticks: 42_tick_scheduler.md, 41_clock_alarm.md section 3, 60_exceptions.md section 3. -/

namespace Sys2Proof.Machine

open Sys2Proof

/-! ### A tick on an invalid digit set -/

theorem exec_tick {s : State} (hf : s.fault = none) : exec .tick s = .next (tick s).state :=
  exec_of_enabled ((noFault_iff s).2 hf)

theorem tickAdvanced_of_due {s : State} (he : tickEndsMinute s = true) :
    tickAdvanced s = { s with
      blinkPhase := nextBlink s.settingAlarm s.blinkPhase, tickAcc := 0, clock := bcdIncr s.clock } := by
  rw [tickAdvanced, he]
  rfl

theorem tickAdvanced_of_not_due {s : State} (he : tickEndsMinute s = false) :
    tickAdvanced s = { s with
      blinkPhase := nextBlink s.settingAlarm s.blinkPhase, tickAcc := s.tickAcc + 1 } := by
  rw [tickAdvanced, he]
  rfl

/-- Settles O17: which check fails first is decided by the end of the minute and by the sets. -/
theorem tickEndsAtItsFirstFailingCheck : Obligations.TickEndsAtItsFirstFailingCheck := by
  intro s hf blink minuteEnds
  have due (h : minuteEnds) : tickEndsMinute s = true := (tickEndsMinute_iff s).2 h
  have notDue (h : ¬ minuteEnds) : tickEndsMinute s = false := Bool.eq_false_iff.2 (mt (tickEndsMinute_iff s).1 h)
  rw [exec_tick hf]
  refine ⟨fun h hc => ?advanceFails, fun h hc => ?clockFails, fun h hc ha => ?alarmFailsLater,
    fun h hc ha => ?alarmFails⟩
  case advanceFails =>
    rw [tick_of_invalid_clock_of_due (due h) hc]
    rfl
  case clockFails =>
    rw [tick_of_invalid_clock_of_not_due (notDue h) hc, tickAdvanced_of_not_due (notDue h)]
    rfl
  case alarmFailsLater =>
    rw [tick_of_invalid_alarm hc ha, tickAdvanced_of_due (due h)]
    rfl
  case alarmFails =>
    rw [tick_of_invalid_alarm hc ha, tickAdvanced_of_not_due (notDue h)]
    rfl

/-! ### One tick on valid digit sets -/

/-- Both digit sets are valid and no fault is recorded: every tick completes. -/
structure Ticking (s : State) : Prop where
  noFault : s.fault = none
  clockValid : s.clock.valid = true
  alarmValid : s.alarm.valid = true

/-- What a tick leaves where it completes. -/
def ticked (s : State) : State := tickResume (tickCountDown (compareAlarm (tickAdvanced s)))

theorem exec_tick_of_ticking {s : State} (h : Ticking s) : exec .tick s = .next (ticked s) := by
  rw [exec_tick h.noFault, tick_of_valid h.clockValid h.alarmValid, completed_state, ticked]

theorem ticking_ticked {s : State} (h : Ticking s) : Ticking (ticked s) :=
  ⟨h.noFault, tickAdvanced_clock_valid h.clockValid, h.alarmValid⟩

theorem ticked_sounding (s : State) : (ticked s).sounding = decide ((ticked s).clock = (ticked s).alarm) := rfl

theorem ticked_silenced (s : State) :
    (ticked s).silenced = (s.silenced && decide ((ticked s).clock = (ticked s).alarm)) := rfl

theorem ticked_clock (s : State) : (ticked s).clock = if tickEndsMinute s then bcdIncr s.clock else s.clock := rfl

theorem ticked_tickAcc (s : State) : (ticked s).tickAcc = if tickEndsMinute s then 0 else s.tickAcc + 1 := rfl

/-! ### A run of ticks -/

theorem ticking_iterate {s : State} (h : Ticking s) (n : Nat) : Ticking (ticked^[n] s) := by
  induction n with
  | zero => exact h
  | succ n ih =>
    rw [Function.iterate_succ_apply']
    exact ticking_ticked ih

/-- A scheduled tick, in whatever environment. -/
theorem step_tick {v s : State} {rest : List Word} (h : Ticking s) (hv : v.schedule = 0x10 :: rest) :
    step (withEnvironment v s) = .next (withEnvironment { v with schedule := rest, isolated := false } (ticked s)) := by
  rw [step_of_scheduled (s := withEnvironment v s) hv (decode_encode .tick) rfl]
  exact exec_tick_of_ticking (s := withEnvironment { v with schedule := rest, isolated := false } s)
    ⟨h.noFault, h.clockValid, h.alarmValid⟩

theorem run_ticks {v s : State} {n : Nat} (h : Ticking s) (hv : v.schedule = List.replicate n 0x10) :
    ∃ w, Host.Core.run Sys2Proof.core n (withEnvironment v s) = .next (withEnvironment w (ticked^[n] s)) := by
  induction n generalizing v s with
  | zero => exact ⟨v, rfl⟩
  | succ n ih =>
    obtain ⟨w, hw⟩ := ih (v := { v with schedule := List.replicate n 0x10, isolated := false }) (ticking_ticked h) rfl
    exact ⟨w, (run_succ_of_next n (step_tick h hv)).trans hw⟩

/-- After `n` ticks every register is as `n` applications of one tick leave it. -/
theorem afterTicks_of_ticking {s : State} (h : Ticking s) (n : Nat) :
    ∃ w, afterTicks n s = .next (withEnvironment w (ticked^[n] s)) :=
  run_ticks (v := { s with schedule := List.replicate n 0x10 }) h rfl

theorem ticked_iterate_of_afterTicks {s t : State} {n : Nat} (h : Ticking s) (ht : afterTicks n s = .next t) :
    ∃ w, t = withEnvironment w (ticked^[n] s) := by
  obtain ⟨w, hw⟩ := afterTicks_of_ticking h n
  rw [hw] at ht
  cases ht
  exact ⟨w, rfl⟩

/-- What each tick keeps, a run of ticks keeps. -/
theorem ticked_iterate_keeps {α : Type} (f : State → α) (h : ∀ s, f (ticked s) = f s) (n : Nat) (s : State) :
    f (ticked^[n] s) = f s := by
  have hid : f (ticked^[n] s) = id^[n] (f s) := Function.Semiconj.iterate_right (fun u => h u) n s
  rw [hid, Function.iterate_id, id]

theorem ticked_iterate_alarm (n : Nat) (s : State) : (ticked^[n] s).alarm = s.alarm :=
  ticked_iterate_keeps State.alarm (fun _ => rfl) n s

theorem ticked_iterate_params (n : Nat) (s : State) : (ticked^[n] s).params = s.params :=
  ticked_iterate_keeps State.params (fun _ => rfl) n s

theorem ticked_iterate_settingAlarm (n : Nat) (s : State) : (ticked^[n] s).settingAlarm = s.settingAlarm :=
  ticked_iterate_keeps State.settingAlarm (fun _ => rfl) n s

/-! ### The clock under ticks -/

/-- One more than `a` when `a` is one short of a whole number of minutes. -/
theorem div_mod_succ_of_full {a N : Nat} (h : a % N + 1 = N) : (a + 1) / N = a / N + 1 ∧ (a + 1) % N = 0 := by
  have hsplit := Nat.mod_add_div a N
  rw [Nat.div_mod_unique (by omega), Nat.mul_succ]
  omega

/-- One more than `a` within a minute. -/
theorem div_mod_succ_of_lt {a N : Nat} (h : a % N + 1 < N) : (a + 1) / N = a / N ∧ (a + 1) % N = a % N + 1 := by
  have hsplit := Nat.mod_add_div a N
  rw [Nat.div_mod_unique (by omega)]
  omega

/-- The accumulator counts without wrapping below N. -/
theorem toNat_tickAcc_succ {s : State} (h : s.tickAcc.toNat + 1 < s.params.ticksPerMinute.toNat) :
    (s.tickAcc + 1).toNat = s.tickAcc.toNat + 1 :=
  BitVec.toNat_add_of_lt (y := 1) (h.trans s.params.ticksPerMinute.isLt)

/-- The clock after `n` ticks is (tickAcc + n) div N minutes later and the accumulator at the remainder
(42_tick_scheduler.md). -/
theorem ticked_iterate_clock {s : State} (h : Ticking s) (hacc : s.tickAcc.toNat < s.params.ticksPerMinute.toNat)
    (n : Nat) :
    minuteOfDay (ticked^[n] s).clock
        = (minuteOfDay s.clock + (s.tickAcc.toNat + n) / s.params.ticksPerMinute.toNat) % 1440
      ∧ (ticked^[n] s).tickAcc.toNat = (s.tickAcc.toNat + n) % s.params.ticksPerMinute.toNat := by
  induction n with
  | zero => exact ⟨by simp [Nat.div_eq_of_lt hacc, Nat.mod_eq_of_lt (minuteOfDay_lt h.clockValid)],
      (Nat.mod_eq_of_lt hacc).symm⟩
  | succ n ih =>
    obtain ⟨hclock, hrest⟩ := ih
    have hlt := Nat.mod_lt (s.tickAcc.toNat + n) (Nat.zero_lt_of_lt hacc)
    have hends := tickEndsMinute_iff (ticked^[n] s)
    rw [ticked_iterate_params, hrest] at hends
    rw [Function.iterate_succ_apply', ticked_clock, ticked_tickAcc, ← Nat.add_assoc]
    by_cases hfull : (s.tickAcc.toNat + n) % s.params.ticksPerMinute.toNat + 1 = s.params.ticksPerMinute.toNat
    · obtain ⟨hdiv, hmod⟩ := div_mod_succ_of_full hfull
      rw [if_pos (hends.2 hfull.ge), if_pos (hends.2 hfull.ge), hdiv, hmod,
        minuteOfDay_bcdIncr (ticking_iterate h n).clockValid, hclock, Nat.mod_add_mod, Nat.add_assoc]
      exact ⟨rfl, rfl⟩
    · have hshort : (s.tickAcc.toNat + n) % s.params.ticksPerMinute.toNat + 1 < s.params.ticksPerMinute.toNat := by
        omega
      obtain ⟨hdiv, hmod⟩ := div_mod_succ_of_lt hshort
      have hnot := mt hends.1 (Nat.not_le.2 hshort)
      rw [if_neg hnot, if_neg hnot, hdiv, hmod, hclock, toNat_tickAcc_succ, hrest]
      · exact ⟨rfl, rfl⟩
      · rw [ticked_iterate_params, hrest]
        exact hshort

/-- Settles O18: the division by N counts the ends of minutes among the ticks. -/
theorem clockAdvancesOneMinuteEveryNTicks : Obligations.ClockAdvancesOneMinuteEveryNTicks := by
  intro s n hf hc ha hacc
  have h : Ticking s := ⟨hf, hc, ha⟩
  obtain ⟨w, hw⟩ := afterTicks_of_ticking h n
  obtain ⟨hclock, hrest⟩ := ticked_iterate_clock h hacc n
  obtain ⟨hfault, hvalid, -⟩ := ticking_iterate h n
  exact ⟨_, hw, hclock, hrest, hvalid, ticked_iterate_alarm n s, hfault⟩

/-! ### The countdown under ticks -/

theorem toNat_countDown (v : BitVec 8) : (countDown v).toNat = v.toNat - 1 := by
  rw [countDown]
  split
  case isTrue h => rw [h]; rfl
  case isFalse h => bv_omega

theorem toNat_countDown_iterate (n : Nat) (v : BitVec 8) : (countDown^[n] v).toNat = v.toNat - n := by
  induction n with
  | zero => rfl
  | succ n ih => rw [Function.iterate_succ_apply', toNat_countDown, ih, Nat.sub_sub]

theorem ticked_iterate_countdown (n : Nat) (s : State) : (ticked^[n] s).countdown = countDown^[n] s.countdown :=
  Function.Semiconj.iterate_right (f := State.countdown) (ga := ticked) (gb := countDown) (fun _ => rfl) n s

/-- Settles O19: the countdown of each tick, iterated; AUTO_OFF tests the three conditions of `sleepDue`. -/
theorem countdownRunsOutAfterItsTicks : Obligations.CountdownRunsOutAfterItsTicks := by
  constructor
  · intro s n hf hc ha
    obtain ⟨w, hw⟩ := afterTicks_of_ticking ⟨hf, hc, ha⟩ n
    exact ⟨_, hw, (congrArg _ (ticked_iterate_countdown n s)).trans (toNat_countDown_iterate n s.countdown),
      ticked_iterate_keeps State.asleep (fun _ => rfl) n s, ticked_iterate_keeps State.phase (fun _ => rfl) n s⟩
  · intro s hf hidle hp hs ha
    refine ⟨_, exec_of_atPhase (i := .autoOff) rfl ⟨hf, hidle, hp⟩, ?_⟩
    rw [stateAfter, autoOff_asleep, hs, Bool.false_or, sleepDue_iff, ← alarmActive_eq_false_iff]
    simp only [hs, ha, true_and, and_true]

/-! ### The blink phase under ticks -/

theorem ticked_iterate_blinkPhase (n : Nat) (s : State) :
    (ticked^[n] s).blinkPhase = (nextBlink s.settingAlarm)^[n] s.blinkPhase := by
  induction n with
  | zero => rfl
  | succ n ih =>
    rw [Function.iterate_succ_apply', Function.iterate_succ_apply', ← ih, ← ticked_iterate_settingAlarm n s]
    rfl

theorem nextBlink_true : nextBlink true = Bool.not := rfl

/-- Settles O20: in Setting each tick negates the phase, otherwise the last tick leaves it true. -/
theorem blinkPhaseAlternatesInSetting : Obligations.BlinkPhaseAlternatesInSetting := by
  intro s n hf hc ha
  obtain ⟨w, hw⟩ := afterTicks_of_ticking ⟨hf, hc, ha⟩ n
  refine ⟨_, hw, ticked_iterate_settingAlarm n s, fun hset => ?setting, fun hset hpos => ?notSetting⟩
  case setting =>
    refine (ticked_iterate_blinkPhase n s).trans ?_
    rw [hset, nextBlink_true]
    by_cases hn : n % 2 = 0
    · rw [if_pos hn, Bool.involutive_not.iterate_even (Nat.even_iff.2 hn), id]
    · rw [if_neg hn, Bool.involutive_not.iterate_odd (Nat.odd_iff.2 (Nat.mod_two_ne_zero.1 hn))]
  case notSetting =>
    obtain ⟨k, rfl⟩ := Nat.exists_eq_add_of_lt hpos
    refine (ticked_iterate_blinkPhase _ s).trans ?_
    rw [hset, Nat.zero_add, Function.iterate_succ_apply']
    rfl

/-! ### The alarm under ticks -/

/-- A tick that leaves a mismatch leaves both flags clear. -/
theorem ticked_flags_of_ne {s : State} (h : (ticked s).clock ≠ (ticked s).alarm) :
    (ticked s).sounding = false ∧ (ticked s).silenced = false := by
  rw [ticked_sounding, ticked_silenced, decide_eq_false h, Bool.and_false]
  exact ⟨rfl, rfl⟩

/-- The last tick of a run compares what it leaves. -/
theorem ticked_iterate_sounding {n : Nat} (hn : 0 < n) (s : State) :
    (ticked^[n] s).sounding = decide ((ticked^[n] s).clock = (ticked^[n] s).alarm) := by
  obtain ⟨k, rfl⟩ := Nat.exists_eq_succ_of_ne_zero hn.ne'
  rw [Function.iterate_succ_apply', ticked_sounding]

theorem ticked_iterate_silenced_of_ne {n : Nat} (hn : 0 < n) {s : State}
    (h : (ticked^[n] s).clock ≠ (ticked^[n] s).alarm) : (ticked^[n] s).silenced = false := by
  obtain ⟨k, rfl⟩ := Nat.exists_eq_succ_of_ne_zero hn.ne'
  rw [Function.iterate_succ_apply'] at h ⊢
  exact (ticked_flags_of_ne h).2

/-- No tick silences. -/
theorem ticked_iterate_silenced_of_not {s : State} (h : s.silenced = false) (n : Nat) :
    (ticked^[n] s).silenced = false := by
  induction n with
  | zero => exact h
  | succ n ih => rw [Function.iterate_succ_apply', ticked_silenced, ih, Bool.false_and]

/-- From the tick that makes the match, with the accumulator at 0, the clock agrees with the alarm for the N - 1 ticks after
it and not at the N-th. -/
theorem ticked_iterate_match_iff {s : State} (h : Ticking s) (hmatch : s.clock = s.alarm) (hacc : s.tickAcc = 0)
    (hN : 0 < s.params.ticksPerMinute.toNat) {k : Nat} (hk : k ≤ s.params.ticksPerMinute.toNat) :
    (ticked^[k] s).clock = (ticked^[k] s).alarm ↔ k < s.params.ticksPerMinute.toNat := by
  have hzero : s.tickAcc.toNat = 0 := congrArg BitVec.toNat hacc
  obtain ⟨hclock, -⟩ := ticked_iterate_clock h (hzero.trans_lt hN) k
  have hday := minuteOfDay_lt h.clockValid
  rw [hzero, Nat.zero_add] at hclock
  have hminutes : (ticked^[k] s).clock = (ticked^[k] s).alarm
      ↔ minuteOfDay (ticked^[k] s).clock = minuteOfDay s.clock := by
    rw [ticked_iterate_alarm, ← hmatch]
    exact ⟨congrArg _, eq_of_minuteOfDay_eq (ticking_iterate h k).clockValid h.clockValid⟩
  rw [hminutes, hclock]
  rcases hk.lt_or_eq with hlt | rfl
  · simp only [Nat.div_eq_of_lt hlt, hlt, iff_true]
    omega
  · simp only [Nat.div_self hN, lt_irrefl, iff_false]
    omega

/-- Settles O21: the comparison of the last tick, what ticks keep of `silenced`, and the minute the match lasts. -/
theorem alarmIsNotStickyAndLastsOneMinute : Obligations.AlarmIsNotStickyAndLastsOneMinute := by
  refine ⟨fun s t ht hf hne => ?mismatch, fun s u t j k hj hjk hf hc ha hu hne ht heq => ?rearmed,
    fun s k hf hc ha hend hmatch hpos => ?minute⟩
  case mismatch =>
    obtain ⟨-, rfl⟩ := (exec_next_iff _ _ _).1 ht
    rcases tick_state_cases s with ⟨-, -, h⟩ | ⟨-, -, h⟩ | ⟨-, h⟩ | ⟨-, h⟩ <;> rw [stateAfter, h] at hf hne ⊢
    · exact ticked_flags_of_ne hne
    all_goals cases hf
  case rearmed =>
    have h : Ticking s := ⟨hf, hc, ha⟩
    obtain ⟨v, rfl⟩ := ticked_iterate_of_afterTicks h hu
    obtain ⟨w, rfl⟩ := ticked_iterate_of_afterTicks h ht
    have hsilenced := ticked_iterate_silenced_of_not (ticked_iterate_silenced_of_ne hj hne) (k - j)
    rw [← Function.iterate_add_apply, Nat.sub_add_cancel hjk.le] at hsilenced
    exact ⟨(ticked_iterate_sounding (hj.trans hjk) s).trans (decide_eq_true heq), hsilenced⟩
  case minute =>
    have h : Ticking s := ⟨hf, hc, ha⟩
    have hends : tickEndsMinute s = true := (tickEndsMinute_iff s).2 hend.ge
    have hfirst : (ticked s).clock = (ticked s).alarm := by
      rw [ticked_clock, if_pos hends, hmatch]
      rfl
    have hacc : (ticked s).tickAcc = 0 := by rw [ticked_tickAcc, if_pos hends]
    obtain ⟨n, rfl⟩ := Nat.exists_eq_succ_of_ne_zero hpos.ne'
    obtain ⟨w, hw⟩ := afterTicks_of_ticking h n.succ
    have hagree (hn : n ≤ s.params.ticksPerMinute.toNat) :
        (ticked^[n.succ] s).clock = (ticked^[n.succ] s).alarm ↔ n < s.params.ticksPerMinute.toNat := by
      rw [Function.iterate_succ_apply]
      exact ticked_iterate_match_iff (ticking_ticked h) hfirst hacc (hend ▸ Nat.succ_pos _) hn
    constructor
    · intro hle
      exact ⟨_, hw, (ticked_iterate_sounding hpos s).trans (decide_eq_true ((hagree (by omega)).2 hle))⟩
    · intro heq
      have hne := mt (hagree (by omega)).1 (by omega)
      exact ⟨_, hw, (ticked_iterate_sounding hpos s).trans (decide_eq_false hne),
        ticked_iterate_silenced_of_ne hpos hne⟩

/-! ### TICK and WAKE_ISR in either order -/

theorem exec_wakeIsr {s : State} (hf : s.fault = none) (hie : s.wakeIE = true) (hflag : s.wakeFlag = true) :
    exec .wakeIsr s = .next (wakeIsr s) :=
  exec_of_enabled ((wakeIsrEnabled_iff s).2 ⟨hf, hie, hflag⟩)

/-- Every phase that is held names an operation of the main loop. -/
theorem exists_phaseOf {p : BitVec 4} (h : p.toNat ≤ 9) : ∃ i ∈ mainLoopOperations, phaseOf i = some p := by
  revert p
  decide

/-- Settles O44: the reload of WAKE_ISR and the decrement of TICK in either order, or the operation the phase names. -/
theorem interruptOrderDecidesTheCountdown : Obligations.InterruptOrderDecidesTheCountdown := by
  intro s hf hie hflag hc ha hA
  refine ⟨⟨wakeIsr s, ticked (wakeIsr s), exec_wakeIsr hf hie hflag, exec_tick_of_ticking ⟨hf, hc, ha⟩, if_neg hA⟩,
    ⟨ticked s, wakeIsr (ticked s), exec_tick_of_ticking ⟨hf, hc, ha⟩, exec_wakeIsr hf hie hflag, rfl⟩,
    fun hidle hp => ?_⟩
  obtain ⟨i, -, hi⟩ := exists_phaseOf hp
  exact ⟨i, _, agentOf_of_phaseOf hi, exec_of_atPhase hi ⟨hf, hidle, rfl⟩⟩

end Sys2Proof.Machine

/-! PROOFS. The statements of 43_display_mux.md: STROBE, SWEEP_END and the sweep they make. -/

namespace Sys2Proof.Machine

open Sys2Proof

/-! ### What a position numbers, by cases -/

theorem get_eq_ite (D : DigitSet) (i : Position) :
    D.get i = if i = 0 then D.minuteUnits else if i = 1 then D.minuteTens else if i = 2 then D.hourUnits
      else D.hourTens :=
  match i with
  | 0 => rfl
  | 1 => rfl
  | 2 => rfl
  | 3 => rfl

theorem onehot_eq_ite (i : Position) :
    onehot i = if i = 0 then 0b0001 else if i = 1 then 0b0010 else if i = 2 then 0b0100 else 0b1000 :=
  match i with
  | 0 => rfl
  | 1 => rfl
  | 2 => rfl
  | 3 => rfl

theorem slotCode_eq_ite (i : Position) :
    slotCode i = if i = 0 then .slot0 else if i = 1 then .slot1 else if i = 2 then .slot2 else .slot3 :=
  match i with
  | 0 => rfl
  | 1 => rfl
  | 2 => rfl
  | 3 => rfl

theorem strobePhase_toNat (i : Position) : (strobePhase i).toNat = 2 + i.val := by
  revert i
  decide

/-! ### STROBE -/

theorem drawsAfterRead_eq_ite (s : State) : drawsAfterRead s = if s.levels = [] then s.draws + 1 else s.draws := by
  simp only [drawsAfterRead, List.isEmpty_iff]

/-- The whole state a STROBE leaves that renders its slot. -/
theorem senseSlot_driveSlot (i : Position) (mask : SegMask) (s : State) :
    senseSlot i (driveSlot i mask s) = { s with
      ds := onehot i
      segsel := 7
      trace := s.trace ++ slotEvents i mask
      sweepSig := if pinLevel .sense s then slotCode i else s.sweepSig
      phase := s.phase + 1
      levels := s.levels.tail
      draws := if s.levels = [] then s.draws + 1 else s.draws } := by
  rw [← drawsAfterRead_eq_ite]
  rfl

/-- STROBE at its phase, on a valid shown set. -/
theorem exec_strobe_of_valid {s : State} {i : Position}
    (he : s.fault = none ∧ s.idle = false ∧ s.phase = strobePhase i) (hv : (shown s).valid = true) :
    ∃ mask, slotMask s i = some mask ∧ exec (.strobe i) s = .next (senseSlot i (driveSlot i mask s)) := by
  have hcases := strobe_cases i s
  simp only [hv, true_and, Bool.true_eq_false, false_and, or_false] at hcases
  obtain ⟨mask, hmask, h⟩ := hcases
  exact ⟨mask, hmask, by rw [exec_of_atPhase rfl he, stateAfter, h, completed_state]⟩

/-- Settles O22: the shown set's element gives the mask, and the state the STROBE leaves is written out. -/
theorem strobeRendersItsSlotAndSamples : Obligations.StrobeRendersItsSlotAndSamples := by
  intro s i hf hidle hp D element line code hv
  obtain ⟨mask, hmask, h⟩ := exec_strobe_of_valid ⟨hf, hidle, hp⟩ (show (shown s).valid = true from hv)
  have helement : (shown s).get i = element := get_eq_ite _ _
  rw [slotMask, helement] at hmask
  refine ⟨mask, fun hb => ?lit, fun hb => ?dashed, ?state, fun level rest hl => pinLevel_of_supplied hl⟩
  case lit => simpa only [hb, if_true] using hmask
  case dashed => simpa [hb, dashMask, eq_comm] using hmask
  case state =>
    have hline : onehot i = line := onehot_eq_ite i
    have hcode : slotCode i = code := slotCode_eq_ite i
    rw [h, senseSlot_driveSlot, slotEvents, hline, hcode, List.append_assoc s.trace, List.append_assoc s.trace]
    rfl

/-- Settles O23: the check of the shown set comes before every write but the fault's. -/
theorem strobeRaisesBeforeAnyPinWrite : Obligations.StrobeRaisesBeforeAnyPinWrite := by
  intro s i hf hidle hp hv
  have hcases := strobe_cases i s
  simp only [hv, Bool.false_eq_true, false_and, false_or, true_and] at hcases
  rw [exec_of_atPhase (i := .strobe i) rfl ⟨hf, hidle, hp⟩, stateAfter, hcases]
  rfl

/-! ### SWEEP_END -/

/-- The whole state SWEEP_END leaves. -/
theorem sweepEnd_eq (s : State) :
    sweepEnd s = { s with
      ds := 0b0000
      trace := s.trace ++ [.ds 0b0000]
      raw := if pinLevel .wake s then .all else s.sweepSig
      sweepSig := .none
      phase := 7
      levels := s.levels.tail
      draws := if s.levels = [] then s.draws + 1 else s.draws } := by
  rw [← drawsAfterRead_eq_ite]
  rfl

/-- Settles O24: one pin event, one read, and the registers of the sweep. -/
theorem sweepEndPublishesTheRawSignal : Obligations.SweepEndPublishesTheRawSignal := by
  refine ⟨rfl, fun s => ⟨fun he => ?_, exec_of_not_atPhase rfl⟩⟩
  rw [exec_of_atPhase (i := .sweepEnd) rfl he, stateAfter, sweepEnd_eq]

/-! ### The pseudo-operations -/

/-- Settles O54: each list of operations, encoded. -/
theorem pseudoOperationsExpandAsListed : Obligations.PseudoOperationsExpandAsListed :=
  fun _ _ _ _ _ => ⟨rfl, rfl, rfl, rfl, rfl, fun _ => List.map_replicate⟩

/-! ### The sweep -/

/-- What a scheduled STROBE with the supplied level leaves. -/
def strobed (i : Position) (mask : SegMask) (level : Bool) (s : State) : State :=
  { s with
    ds := onehot i
    segsel := 7
    trace := s.trace ++ slotEvents i mask
    sweepSig := if level then slotCode i else s.sweepSig
    phase := s.phase + 1
    schedule := s.schedule.tail
    isolated := false
    levels := s.levels.tail }

/-- What a scheduled SWEEP_END with the supplied level leaves. -/
def sweepEnded (level : Bool) (s : State) : State :=
  { s with
    ds := 0b0000
    trace := s.trace ++ [.ds 0b0000]
    raw := if level then .all else s.sweepSig
    sweepSig := .none
    phase := 7
    schedule := s.schedule.tail
    isolated := false
    levels := s.levels.tail }

/-- Inside a sweep at phase `p`: what is still scheduled and supplied, and that the next operation may be performed. -/
structure InSweep (p : BitVec 4) (words : List Word) (levels : List Bool) (s : State) : Prop where
  enabled : s.fault = none ∧ s.idle = false ∧ s.phase = p
  shownValid : (shown s).valid = true
  scheduled : s.schedule = words
  supplied : s.levels = levels

theorem inSweep_strobed {p : BitVec 4} {w : Word} {words : List Word} {level : Bool} {levels : List Bool} {s : State}
    (h : InSweep p (w :: words) (level :: levels) s) (i : Position) (mask : SegMask) :
    InSweep (p + 1) words levels (strobed i mask level s) := by
  obtain ⟨⟨hf, hidle, hp⟩, hv, hs, hl⟩ := h
  exact ⟨⟨hf, hidle, congrArg (· + 1) hp⟩, hv, congrArg List.tail hs, congrArg List.tail hl⟩

/-- A scheduled STROBE whose level is supplied. -/
theorem step_strobe {i : Position} {words : List Word} {level : Bool} {levels : List Bool} {s : State}
    (h : InSweep (strobePhase i) (encode (.strobe i) :: words) (level :: levels) s) :
    ∃ mask, step s = .next (strobed i mask level s) := by
  obtain ⟨he, hv, hs, hl⟩ := h
  obtain ⟨mask, -, h⟩ := exec_strobe_of_valid (s := { s with schedule := words, isolated := false }) he hv
  refine ⟨mask, ?_⟩
  rw [step_of_scheduled hs (decode_encode _) rfl, h, senseSlot_driveSlot]
  simp only [strobed, hs, hl, pinLevel, List.tail_cons, reduceCtorEq, if_false]

/-- A scheduled SWEEP_END whose level is supplied. -/
theorem step_sweepEnd {words : List Word} {level : Bool} {levels : List Bool} {s : State}
    (h : InSweep 6 (encode .sweepEnd :: words) (level :: levels) s) : step s = .next (sweepEnded level s) := by
  obtain ⟨he, -, hs, hl⟩ := h
  rw [step_of_scheduled hs (decode_encode _) rfl,
    exec_of_atPhase (i := .sweepEnd) (s := { s with schedule := words, isolated := false }) rfl he, stateAfter,
    sweepEnd_eq]
  simp only [sweepEnded, hs, hl, pinLevel, List.tail_cons, reduceCtorEq, if_false]

/-- The five operations of a sweep, each performed in the state the one before left. -/
theorem run_sweep {s0 s1 s2 s3 w : Bool} {s : State}
    (h : InSweep 2 (wordsOf (sweepLines s0 s1 s2 s3 w)) [s0, s1, s2, s3, w] s) :
    ∃ m0 m1 m2 m3, Host.Core.run Sys2Proof.core 5 s
      = .next (sweepEnded w (strobed 3 m3 s3 (strobed 2 m2 s2 (strobed 1 m1 s1 (strobed 0 m0 s0 s))))) := by
  obtain ⟨m0, h0⟩ := step_strobe (i := 0) h
  have at1 := inSweep_strobed h 0 m0
  obtain ⟨m1, h1⟩ := step_strobe (i := 1) at1
  have at2 := inSweep_strobed at1 1 m1
  obtain ⟨m2, h2⟩ := step_strobe (i := 2) at2
  have at3 := inSweep_strobed at2 2 m2
  obtain ⟨m3, h3⟩ := step_strobe (i := 3) at3
  have h4 := step_sweepEnd (inSweep_strobed at3 3 m3)
  exact ⟨m0, m1, m2, m3, (run_succ_of_next 4 h0).trans ((run_succ_of_next 3 h1).trans ((run_succ_of_next 2 h2).trans
    ((run_succ_of_next 1 h3).trans (run_succ_of_next 0 h4))))⟩

/-- Settles O25: what the five operations leave of the levels, and the 37 events. -/
theorem aSweepPublishesTheHighestAssertedSlot : Obligations.ASweepPublishesTheHighestAssertedSlot := by
  intro s s0 s1 s2 s3 w hf hidle hp hsig hv
  obtain ⟨m0, m1, m2, m3, hrun⟩ :=
    run_sweep (s := s.withTrace (sweepLines s0 s1 s2 s3 w)) ⟨⟨hf, hidle, hp⟩, hv, rfl, rfl⟩
  refine ⟨_, hrun, ?raw, ?trace, ?frame⟩
  case raw =>
    simp only [sweepEnded, strobed, State.withTrace, hsig, slotCode]
  case trace => simp [sweepEnded, strobed, State.withTrace, slotEvents, subPhases]
  case frame =>
    simp only [sweepEnded, strobed, State.withTrace, hsig]
    rfl

/-! ### The dark display -/

/-- Settles O26: asleep the phase is 0 or 1, which names neither a STROBE nor a moment between two. -/
theorem displayIsDarkWhileAsleep : Obligations.DisplayIsDarkWhileAsleep := by
  intro s hs hdark
  obtain ⟨hsegsel, -, hreleased⟩ := hs.reached.pinsReleased
  have hasleep : s.asleep = true := hdark.elim (fun hidle => (hs.reached.idleAsleep hidle).1) id
  have hphase := hs.asleepAtPassStart hasleep
  refine ⟨hreleased fun i hi => ?released, hsegsel, fun i => exec_of_not_atPhase (i := .strobe i) rfl ?refused⟩
  case released =>
    have h3 : s.phase.toNat = 3 + i.val := by
      rw [hi, BitVec.toNat_ofNat]
      omega
    omega
  case refused =>
    rintro ⟨-, -, hi⟩
    have h2 := (congrArg BitVec.toNat hi).trans (strobePhase_toNat i)
    omega

end Sys2Proof.Machine

/-! PROOFS. The remaining statements of 44_debounce_mode.md and its neighbours: what the filter accepts over several passes
(section 7), a set that faults (60_exceptions.md section 1), wake edges and alarms against a sleeping display
(70_reset_and_hazards.md section 3). -/

namespace Sys2Proof.Machine

open Sys2Proof

/-! ### The filter as a function of the raw samples -/

/-- What DEBOUNCE accepts of a raw code after the sample `prev`. -/
def acceptedCode (raw prev : ButtonCode) : ButtonCode := if debounceSample raw = prev then debounceSample raw else .none

/-- The accepted codes and press edges of a sequence of raw codes, from the registers `prev` and `lastStable`. -/
def filterOutputs : List ButtonCode → ButtonCode → ButtonCode → List (ButtonCode × Bool)
  | [], _, _ => []
  | raw :: rest, prev, last =>
    (acceptedCode raw prev, pressEdge (acceptedCode raw prev) last)
      :: filterOutputs rest (debounceSample raw) (acceptedCode raw prev)

/-- The passes of DEBOUNCE compute this function of their samples. -/
theorem debouncePasses_eq {s : State} (hf : s.fault = none) (hidle : s.idle = false) (raws : List ButtonCode) :
    debouncePasses raws s = some (filterOutputs raws s.prev s.lastStable) := by
  induction raws generalizing s with
  | nil => rfl
  | cons raw rest ih =>
    have hexec : exec .debounce { s with raw := raw, phase := 7 } = .next (debounce { s with raw := raw, phase := 7 }) :=
      exec_of_atPhase (i := .debounce) rfl ⟨hf, hidle, rfl⟩
    simp only [debouncePasses, hexec, ih (s := debounce { s with raw := raw, phase := 7 }) hf hidle, Option.map_some]
    rfl

theorem filterOutputs_length (raws : List ButtonCode) (prev last : ButtonCode) :
    (filterOutputs raws prev last).length = raws.length := by
  induction raws generalizing prev last with
  | nil => rfl
  | cons raw rest ih => simp only [filterOutputs, List.length_cons, ih]

/-! ### Two slots in turn -/

theorem debounceSample_slotCode (i : Position) : debounceSample (slotCode i) = slotCode i := by
  revert i
  decide

theorem slotCode_ne_none (i : Position) : slotCode i ≠ .none := by
  revert i
  decide

theorem slotCode_injective : Function.Injective slotCode := by
  decide

/-- Settles O31: the filter on five samples. -/
theorem fivePassesGiveTwoPressEdges : Obligations.FivePassesGiveTwoPressEdges := by
  intro s i j hne hf hidle hprev hlast
  have hij : slotCode i ≠ slotCode j := slotCode_injective.ne hne
  rw [debouncePasses_eq hf hidle, hprev, hlast]
  simp [filterOutputs, acceptedCode, pressEdge, debounceSample_slotCode, slotCode_ne_none, hij.symm]

/-! ### What an accepted code says of the samples -/

/-- A sample that is a code was read as that code, and is not the sentinel. -/
theorem raw_of_debounceSample {raw c : ButtonCode} (h : debounceSample raw = c) (hc : c ≠ .none) :
    raw = c ∧ c ≠ .all := by
  rw [debounceSample] at h
  split at h
  case isTrue => exact absurd h.symm hc
  case isFalse hall => exact ⟨h, h ▸ hall⟩

/-- An accepted code is the sample of this pass and of the one before. -/
theorem samples_of_acceptedCode {raw prev : ButtonCode} (hc : acceptedCode raw prev ≠ .none) :
    debounceSample raw = acceptedCode raw prev ∧ prev = acceptedCode raw prev := by
  rw [acceptedCode] at hc ⊢
  split
  case isTrue h => exact ⟨rfl, h.symm⟩
  case isFalse h => exact absurd (if_neg h) hc

/-- An accepted code stood in `raw` on its pass and on the one before, or in `prev` before the first pass. -/
theorem filterOutputs_accepted {raws : List ButtonCode} {prev last c : ButtonCode} {k : Nat} {e : Bool}
    (h : (filterOutputs raws prev last)[k]? = some (c, e)) (hc : c ≠ .none) :
    c ≠ .all ∧ raws[k]? = some c ∧ (k = 0 ∧ prev = c ∨ 0 < k ∧ raws[k - 1]? = some c) := by
  induction raws generalizing prev last k with
  | nil => cases h
  | cons raw rest ih =>
    cases k with
    | zero =>
      obtain ⟨rfl, -⟩ : acceptedCode raw prev = c ∧ pressEdge _ last = e := by simpa [filterOutputs] using h
      obtain ⟨hsample, hprev⟩ := samples_of_acceptedCode hc
      obtain ⟨hraw, hall⟩ := raw_of_debounceSample hsample hc
      exact ⟨hall, congrArg some hraw, .inl ⟨rfl, hprev⟩⟩
    | succ k =>
      obtain ⟨hall, hread, hbefore⟩ := ih (k := k) (by simpa [filterOutputs] using h)
      refine ⟨hall, hread, .inr ⟨k.succ_pos, ?_⟩⟩
      rcases hbefore with ⟨rfl, hsample⟩ | ⟨hpos, hread'⟩
      · exact congrArg some (raw_of_debounceSample hsample hc).1
      · obtain ⟨m, rfl⟩ := Nat.exists_eq_succ_of_ne_zero hpos.ne'
        exact hread'

/-- A press edge comes with an accepted code that the pass before, or `lastStable` before the first, had not. -/
theorem filterOutputs_edge {raws : List ButtonCode} {prev last c : ButtonCode} {k : Nat}
    (h : (filterOutputs raws prev last)[k]? = some (c, true)) :
    c ≠ .none ∧ (k = 0 → c ≠ last) ∧ (0 < k → ∀ e, (filterOutputs raws prev last)[k - 1]? ≠ some (c, e)) := by
  induction raws generalizing prev last k with
  | nil => cases h
  | cons raw rest ih =>
    cases k with
    | zero =>
      obtain ⟨rfl, hedge⟩ : acceptedCode raw prev = c ∧ pressEdge (acceptedCode raw prev) last = true := by
        simpa [filterOutputs] using h
      rw [pressEdge_eq_decide, decide_eq_true_eq] at hedge
      exact ⟨hedge.1, fun _ => hedge.2, fun hpos => absurd hpos (lt_irrefl 0)⟩
    | succ k =>
      obtain ⟨hc, hfirst, hlater⟩ := ih (k := k) (by simpa [filterOutputs] using h)
      refine ⟨hc, fun hk => absurd hk k.succ_ne_zero, fun _ e => ?_⟩
      cases k with
      | zero => simpa [filterOutputs] using fun heq => absurd heq.symm (hfirst rfl)
      | succ m => simpa [filterOutputs] using hlater m.succ_pos e

/-- Settles O32: the two facts about every output of the filter, from registers that hold no code. -/
theorem acceptedCodesWereReadOnTwoPasses : Obligations.AcceptedCodesWereReadOnTwoPasses := by
  intro s raws hf hidle hprev hlast
  refine ⟨_, debouncePasses_eq hf hidle raws, filterOutputs_length _ _ _, fun k c e h => ?_⟩
  have accepted (hc : c ≠ .none) : c ≠ .all ∧ 0 < k ∧ raws[k]? = some c ∧ raws[k - 1]? = some c := by
    obtain ⟨hall, hread, ⟨-, hfirst⟩ | ⟨hpos, hbefore⟩⟩ := filterOutputs_accepted h hc
    · exact absurd (hfirst.symm.trans hprev) hc
    · exact ⟨hall, hpos, hread, hbefore⟩
  refine ⟨accepted, fun he => ?_⟩
  subst he
  obtain ⟨hc, -, hlater⟩ := filterOutputs_edge h
  exact ⟨hc, hlater (accepted hc).2.1⟩

/-! ### A set that faults -/

theorem acceptedFunction_of_slotCode {s : State} {i : Position} (h : s.stable = slotCode i) :
    acceptedFunction s = buttonFunction s.params.buttonMap i := by
  rw [acceptedFunction, h, slotOf_slotCode]

/-- Settles O34: SET_INCR raises, so DISPATCH leaves its fault and the reload, and nothing after them. -/
theorem aFaultingSetEndsDispatchBeforeThePhase : Obligations.AFaultingSetEndsDispatchBeforeThePhase := by
  intro s i hf hidle hp hstable hquiet hfunction hv
  have hcode : s.stable ≠ .none := hstable ▸ slotCode_ne_none i
  have ha : alarmActive s = false := (alarmActive_eq_false_iff s).2 hquiet
  have hinvalid : (digitsOf s (target s)).valid = false := by
    rw [← shown_eq_digitsOf_target]
    exact hv
  obtain ⟨r, hr⟩ : ∃ r, acceptedFunction s = rateFunction r := by
    rw [acceptedFunction_of_slotCode hstable]
    exact hfunction.elim (fun h => ⟨.slow, h⟩) fun h => ⟨.fast, h⟩
  have hraised := (dispatch_state_of_set r hf hcode ha hr rfl).2
  rw [setIncr_of_invalid r hinvalid, raised_state, recordFault_fault] at hraised
  rw [exec_of_atPhase (i := .dispatch) rfl ⟨hf, hidle, hp⟩, stateAfter, hraised (by simp)]
  rfl

/-! ### Wake edges while disarmed -/

theorem exec_wakeEdge {s : State} (hf : s.fault = none) : exec .wakeEdge s = .next (wakeEdge s) :=
  exec_of_enabled ((noFault_iff s).2 hf)

theorem exec_wakeIsr_of_disarmed {s : State} (h : s.wakeIE = false) :
    exec .wakeIsr s = .refused (.notEnabled .wakeIsr) := by
  refine exec_of_disabled (Bool.eq_false_iff.2 fun he => ?_)
  obtain ⟨-, hie, -⟩ := (wakeIsrEnabled_iff s).1 he
  exact absurd (h.symm.trans hie) (by decide)

/-- Settles O38: the latch keeps the edge pending until AUTO_OFF arms the interrupt. -/
theorem disarmedWakeEdgesAreLostOrLatched : Obligations.DisarmedWakeEdgesAreLostOrLatched := by
  intro s hf hie
  refine ⟨fun hlatch => ?lost, fun hlatch hidle hp hs hzero ha => ?latched⟩
  case lost => rw [exec_wakeEdge hf, wakeEdge_of_lost hie hlatch]
  case latched =>
    have hdue : sleepDue (setWakePending s) = true :=
      (sleepDue_iff _).2 ⟨hs, hzero, (alarmActive_eq_false_iff s).1 ha⟩
    have hoff : exec .autoOff (setWakePending s) = .next (setPhase 0 (enterSleep (setWakePending s))) :=
      (exec_of_atPhase (i := .autoOff) (s := setWakePending s) rfl ⟨hf, hidle, hp⟩).trans
        (congrArg _ (autoOff_of_due hdue))
    exact ⟨_, _, _, (exec_wakeEdge hf).trans (congrArg _ (wakeEdge_of_noted (.inr hlatch))),
      exec_wakeIsr_of_disarmed hie, hoff, rfl, exec_wakeIsr hf rfl rfl, rfl, rfl⟩

/-! ### An alarm while asleep -/

/-- Settles O39: the tick makes the match and ends the idle wait, and ALARM_SERVICE finds the alarm active. -/
theorem anAlarmWakesASleepingDisplay : Obligations.AnAlarmWakesASleepingDisplay := by
  intro s hs hasleep hp hsilenced hend hmatch
  obtain ⟨hclock, halarm⟩ := hs.reached.digitsValid
  have hticking : Ticking s := ⟨hs.noFaultRecorded, hclock, halarm⟩
  have hagree : (ticked s).clock = s.alarm := by
    rw [ticked_clock, if_pos ((tickEndsMinute_iff s).2 hend), hmatch]
  have hactive : alarmActive (ticked s) = true := by
    rw [alarmActive_iff, ticked_sounding, ticked_silenced, hsilenced, Bool.false_and]
    exact ⟨decide_eq_true hagree, rfl⟩
  let u : State := withEnvironment { s with schedule := [encode .alarmService], isolated := false } (ticked s)
  have htick : step { s with schedule := [0x10, 0x80] } = .next u :=
    step_tick (v := { s with schedule := [0x10, 0x80] }) hticking rfl
  let v : State := { u with schedule := [], isolated := false }
  have hserve : step u = .next (setPhase 1 (showAlarm v)) := by
    rw [step_of_scheduled (s := u) rfl (decode_encode .alarmService) rfl,
      exec_of_atPhase (i := .alarmService) (s := v) rfl ⟨hticking.noFault, rfl, hp⟩]
    exact congrArg _ (alarmService_of_active hactive)
  exact ⟨setPhase 1 (showAlarm v), (run_succ_of_next 1 htick).trans (run_succ_of_next 0 hserve), rfl,
    (effMode_eq_alarmSounding_iff _).2 hactive, hactive, rfl, rfl, toNat_countDown s.countdown, hagree⟩

end Sys2Proof.Machine

/-! PROOFS. RESET (70_reset_and_hazards.md section 1), the fault (60_exceptions.md section 1), and what a step takes and
adds (20_memory.md section 3). -/

namespace Sys2Proof.Machine

open Sys2Proof

/-! ### RESET -/

/-- The state RESET leaves: the table's values, with the parameters and the environment of the state before it. -/
theorem stateAfter_reset (s : State) :
    stateAfter .reset s = withEnvironment s { State.reset with params := s.params } := by
  have hmidnight : (resetRegisters s).clock.valid = true := by
    show midnight.valid = true
    decide
  rw [stateAfter, minuteIncr_of_valid hmidnight]
  rfl

theorem exec_reset (s : State) :
    exec .reset s = .next (withEnvironment s { State.reset with params := s.params }) := by
  rw [exec_of_enabled (i := .reset) rfl, stateAfter_reset]

/-- Settles O8: the boot increment takes the clock from midnight to 00:01. -/
theorem resetLeavesTheTabledValues : Obligations.ResetLeavesTheTabledValues :=
  fun s => ⟨_, exec_reset s, rfl, rfl, rfl, rfl, rfl, rfl, rfl, rfl, rfl, rfl, rfl, rfl, rfl, rfl, rfl, rfl, rfl, rfl,
    rfl, rfl, rfl, rfl, rfl, rfl, rfl⟩

/-- Settles O9: the reset state is quiet and asleep, and its wake interrupt is not pending. -/
theorem resetEntersSleepingArmedAtAlarmService : Obligations.ResetEntersSleepingArmedAtAlarmService := by
  refine ⟨effMode_of_asleep rfl rfl, rfl, rfl, ⟨_, exec_of_atPhase rfl ⟨rfl, rfl, rfl⟩⟩, ⟨_, exec_tick rfl⟩, ?_⟩
  refine exec_of_disabled (Bool.eq_false_iff.2 fun he => ?_)
  obtain ⟨-, -, hflag⟩ := (wakeIsrEnabled_iff _).1 he
  cases hflag

/-! ### What a step performs -/

/-- A free choice never falls on RESET or on a sub-operation. -/
theorem performedInRun_of_mem_enabledOperations {i : Instr} {s : State} (h : i ∈ enabledOperations s) :
    i.performedInRun = true ∧ i ≠ .reset := by
  have hagent := agentOf_of_mem_enabledOperations h
  cases i <;> simp [agentOf, Instr.performedInRun] at hagent ⊢

/-- If a step answers a next state, it is the one some enabled operation leaves; only a scheduled word makes it RESET. -/
theorem step_next_inversion {s t : State} (h : step s = .next t) :
    ∃ i u, performedFrom s u ∧ enabledIn i u = true ∧ t = stateAfter i u
      ∧ (i.performedInRun = true ∨ s.isolated = true)
      ∧ (i = .reset → ∃ rest, s.schedule = 0x00 :: rest) := by
  obtain ⟨i, u, hfetch, hexec⟩ := step_next_cases h
  obtain ⟨henabled, ht⟩ := (exec_next_iff i u t).1 hexec
  refine ⟨i, u, performedFrom_of_fetch hfetch, henabled, ht, ?_⟩
  rcases fetch_perform_cases hfetch with ⟨w, rest, hs, hd, hp, -⟩ | ⟨-, -, rfl, -⟩
  · refine ⟨hp, ?_⟩
    rintro rfl
    exact ⟨rest, hs.trans (congrArg (· :: rest) (encode_of_decode hd).symm)⟩
  · obtain ⟨hrun, hreset⟩ := performedInRun_of_mem_enabledOperations (chosenOperation_mem (Config.freeChoice s.draws) s)
    exact ⟨.inl hrun, fun hi => absurd hi hreset⟩

/-- An operation other than RESET adds at most the nine events of a STROBE to the trace. -/
theorem stateAfter_trace {i : Instr} (hi : i ≠ .reset) (s : State) :
    ∃ events, (stateAfter i s).trace = s.trace ++ events ∧ events.length ≤ 9 := by
  by_cases hsame : (stateAfter i s).trace = s.trace
  · exact ⟨[], hsame.trans (List.append_nil _).symm, Nat.zero_le 9⟩
  rcases pin_writers hi (.inr (.inr hsame)) with rfl | ⟨p, rfl⟩
  · exact ⟨[.ds 0], rfl, by decide⟩
  · rcases strobe_cases p s with ⟨-, m, -, h⟩ | ⟨-, h⟩ <;> rw [stateAfter, h]
    · exact ⟨slotEvents p m, rfl, le_refl 9⟩
    · exact ⟨[], (List.append_nil _).symm, Nat.zero_le 9⟩

/-- Settles O49: no operation writes the parameters or the schedule, and the fetch takes the one word. -/
theorem stepsKeepParametersAndExtendTheTrace : Obligations.StepsKeepParametersAndExtendTheTrace := by
  intro s t h
  obtain ⟨i, u, hu, -, rfl, -, hreset⟩ := step_next_inversion h
  have hparams : u.params = s.params := by rw [hu]
  have hschedule : u.schedule = s.schedule.tail := by rw [hu]
  have htrace : u.trace = s.trace := by rw [hu]
  refine ⟨(stateAfter_params i u).trans hparams, (stateAfter_schedule i u).trans hschedule, ?_⟩
  by_cases hi : i = .reset
  · obtain ⟨rest, hrest⟩ := hreset hi
    rw [hi, stateAfter_reset, hrest]
    exact .inr ⟨rfl, rfl⟩
  · rw [← htrace]
    exact .inl (stateAfter_trace hi u)

/-! ### A recorded fault -/

theorem enabledIn_of_fault {i : Instr} {s : State} {r : FaultRecord} (hi : i ≠ .reset) (hf : s.fault = some r) :
    enabledIn i s = false := by
  refine Bool.eq_false_iff.2 fun he => ?_
  rw [noFault_of_enabledIn hi he] at hf
  cases hf

/-- Settles O41: no operation but RESET is enabled in a faulted state. -/
theorem aFaultIsFinalWithinARun : Obligations.AFaultIsFinalWithinARun := by
  intro s r hf
  refine ⟨fun i hi => exec_of_disabled (enabledIn_of_fault hi hf), fun hs => ?stops, fun t ht => ?resets⟩
  case stops => simp only [step, fetch, hs, fetchFree, hf]
  case resets =>
    obtain ⟨i, u, hu, he, rfl, -, hreset⟩ := step_next_inversion ht
    have hi : i = .reset := by
      by_contra hne
      have hfault : u.fault = some r := by rw [hu, hf]
      exact absurd he (Bool.eq_false_iff.1 (enabledIn_of_fault hne hfault))
    refine ⟨?_, hreset hi⟩
    rw [hi, stateAfter_reset]
    rfl

/-! ### Which operations raise -/

theorem fault_writers {i : Instr} {s : State} (hi : i ≠ .reset) (h : (stateAfter i s).fault ≠ s.fault) :
    i = .tick ∨ i = .dispatch ∨ (∃ p, i = .strobe p) ∨ i = .minuteIncr ∨ (∃ d f, i = .setIncr d f)
      ∨ i = .evalAlarm := by
  rw [stateAfter_eq_withWritesOf] at h
  cases i <;> simp [withWritesOf] at hi h ⊢

section Raises

variable {s : State} {r : FaultRecord}

theorem raise_of_tick (hf : s.fault = none) (hr : (tick s).state.fault = some r) :
    (digitsOf s r.which).valid = false
      ∧ (r = { which := .clock, op := .minuteIncr } ∨ r.op = .evalAlarm) := by
  rcases tick_state_cases s with ⟨-, -, h⟩ | ⟨-, ha, h⟩ | ⟨hc, h⟩ | ⟨hc, h⟩ <;> rw [h] at hr
  · cases hf.symm.trans hr
  all_goals cases hr
  · exact ⟨ha, .inr rfl⟩
  · exact ⟨hc, .inl rfl⟩
  · exact ⟨hc, .inr rfl⟩

theorem raise_of_dispatch (hf : s.fault = none) (hr : (dispatch s).state.fault = some r) :
    (digitsOf s r.which).valid = false ∧ r = { which := target s, op := .setIncr } := by
  rcases dispatch_state_cases s with ⟨-, h⟩ | ⟨-, h⟩ | h | h | ⟨f, -, h⟩ | ⟨hv, h⟩ <;> rw [h] at hr
  case inr.inr.inr.inr.inr =>
    cases hr
    exact ⟨hv, rfl⟩
  all_goals simp [hf] at hr

theorem raise_of_strobe {p : Position} (hf : s.fault = none) (hr : (strobe p s).state.fault = some r) :
    (digitsOf s r.which).valid = false ∧ r = { which := target s, op := .strobe } := by
  rcases strobe_cases p s with ⟨-, m, -, h⟩ | ⟨hv, h⟩ <;> rw [h] at hr
  · simp [hf] at hr
  · cases hr
    exact ⟨shown_eq_digitsOf_target s ▸ hv, rfl⟩

theorem raise_of_minuteIncr (hf : s.fault = none) (hr : (minuteIncr s).state.fault = some r) :
    (digitsOf s r.which).valid = false ∧ r = { which := .clock, op := .minuteIncr } := by
  rcases minuteIncr_cases s with ⟨-, h⟩ | ⟨hv, h⟩ <;> rw [h] at hr
  · simp [hf] at hr
  · cases hr
    exact ⟨hv, rfl⟩

theorem raise_of_setIncr {d : Target} {f : Rate} (hf : s.fault = none) (hr : (setIncr d f s).state.fault = some r) :
    (digitsOf s r.which).valid = false ∧ r = { which := d, op := .setIncr } := by
  rcases setIncr_cases d f s with ⟨-, h⟩ | ⟨hv, h⟩ <;> rw [h] at hr
  · simp [hf] at hr
  · cases hr
    exact ⟨hv, rfl⟩

theorem raise_of_evalAlarm (hf : s.fault = none) (hr : (evalAlarm s).state.fault = some r) :
    (digitsOf s r.which).valid = false ∧ r.op = .evalAlarm := by
  rcases evalAlarm_cases s with ⟨-, -, h⟩ | ⟨hc, h⟩ | ⟨-, ha, h⟩ <;> rw [h] at hr
  · simp [hf] at hr
  · cases hr
    exact ⟨hc, rfl⟩
  · cases hr
    exact ⟨ha, rfl⟩

end Raises

/-- Settles O42: each operation that may write the fault does so on the set it found invalid. -/
theorem onlyAnInvalidDigitSetRaises : Obligations.OnlyAnInvalidDigitSetRaises := by
  intro i s t r h hr
  obtain ⟨he, rfl⟩ := (exec_next_iff i s t).1 h
  have hi : i ≠ .reset := by
    rintro rfl
    rw [stateAfter_reset] at hr
    cases hr
  have hf : s.fault = none := noFault_of_enabledIn hi he
  refine ⟨hi, ?_⟩
  rcases fault_writers hi (by rw [hr, hf]; simp) with rfl | rfl | ⟨p, rfl⟩ | rfl | ⟨d, f, rfl⟩ | rfl
  · obtain ⟨hv, hwhich⟩ := raise_of_tick hf hr
    exact ⟨hv, .inl ⟨rfl, hwhich⟩⟩
  · obtain ⟨hv, hwhich⟩ := raise_of_dispatch hf hr
    exact ⟨hv, .inr (.inl ⟨rfl, hwhich⟩)⟩
  · obtain ⟨hv, hwhich⟩ := raise_of_strobe hf hr
    exact ⟨hv, .inr (.inr (.inl ⟨⟨p, rfl⟩, hwhich⟩))⟩
  · obtain ⟨hv, hwhich⟩ := raise_of_minuteIncr hf hr
    exact ⟨hv, .inr (.inr (.inr (.inl ⟨rfl, hwhich⟩)))⟩
  · obtain ⟨hv, rfl⟩ := raise_of_setIncr hf hr
    exact ⟨hv, .inr (.inr (.inr (.inr (.inl ⟨⟨f, rfl⟩, rfl⟩))))⟩
  · obtain ⟨hv, hop⟩ := raise_of_evalAlarm hf hr
    exact ⟨hv, .inr (.inr (.inr (.inr (.inr ⟨rfl, hop⟩))))⟩

end Sys2Proof.Machine

/-! PROOFS. The invariant of a run (10_state.md section 5): it holds at reset, every operation of a run keeps it, so it
holds of every reached state. -/

namespace Sys2Proof.Machine

open Sys2Proof

/-! ### Parameters in range -/

theorem wf_iff (p : Params) :
    p.wf = true ↔ 0 < p.ticksPerMinute.toNat ∧ 0 < p.autoOffTicks.toNat ∧ 0 < p.slowDivisor.toNat := by
  simp only [Params.wf, Bool.and_eq_true, decide_eq_true_eq, ne_eq, BitVec.toNat_eq, Nat.pos_iff_ne_zero, and_assoc]
  rfl

/-- The parameters at reset are in range, whatever the value of K: it is one more than a number below 255. -/
theorem config_params_wf : Config.params.wf = true := by
  rw [wf_iff]
  have hK := Config.slowDivisorLessOne.isLt
  refine ⟨by decide, by decide, ?_⟩
  show 0 < (Config.slowDivisorLessOne.val + 1) % 2 ^ 8
  omega

/-! ### The phases that drive no line -/

/-- The phases at which no select line is driven: before the sweep's second STROBE and after SWEEP_END. -/
def DarkPhase (p : BitVec 4) : Prop := p.toNat < 3 ∨ 6 < p.toNat

theorem ne_of_darkPhase {p : BitVec 4} (hp : DarkPhase p) (i : Position) : p ≠ BitVec.ofNat 4 (3 + i.val) := by
  rintro rfl
  rw [DarkPhase, BitVec.toNat_ofNat] at hp
  omega

/-- The clause of the pins with the select lines released. -/
theorem pinsReleased_of_darkPhase {t : State} (hsegsel : t.segsel = 0b111) (hds : t.ds = 0b0000)
    (hp : DarkPhase t.phase) :
    t.segsel = 0b111 ∧ (∀ i : Position, t.phase = BitVec.ofNat 4 (3 + i.val) → t.ds = onehot i)
      ∧ ((∀ i : Position, t.phase ≠ BitVec.ofNat 4 (3 + i.val)) → t.ds = 0b0000) :=
  ⟨hsegsel, fun i hi => absurd hi (ne_of_darkPhase hp i), fun _ => hds⟩

/-! ### The invariant at reset -/

theorem runInvariant_reset {p : Params} (hp : p.wf = true) : RunInvariant { State.reset with params := p } := by
  obtain ⟨hN, -, hK⟩ := (wf_iff p).1 hp
  have hnone : ButtonCode.none ≠ .all := by decide
  have hdark : DarkPhase 0 := .inl (by decide)
  exact
    { reached :=
        { digitsValid := by
            show State.reset.clock.valid = true ∧ State.reset.alarm.valid = true
            decide
          countersBounded := ⟨hN, hK, Nat.zero_le _⟩
          blinkHeld := fun _ => rfl
          asleepNotSetting := fun _ => rfl
          noSentinel := ⟨hnone, hnone, hnone, hnone⟩
          stableIsPrev := fun _ => rfl
          idleAsleep := fun h => absurd h Bool.false_ne_true
          pinsReleased := pinsReleased_of_darkPhase rfl rfl hdark
          phaseNamed := Nat.zero_le 9
          wakePendingArmed := fun _ _ => rfl }
      paramsInRange := hp
      noFaultRecorded := rfl
      asleepAtPassStart := fun _ => Nat.zero_le 1
      inRun := rfl }

/-- Settles O50: the machine's own parameters are in range too. -/
theorem runInvariantHoldsAtReset : Obligations.RunInvariantHoldsAtReset :=
  ⟨runInvariant_reset config_params_wf, fun _ hp => runInvariant_reset hp⟩

/-! ### Clauses of the invariant, by their use -/

section Invariant

variable {s : State}

/-- The invariant does not depend on what the environment holds, but for the isolation mark. -/
theorem runInvariant_withEnvironment {v : State} (h : RunInvariant s) (hv : v.isolated = false) :
    RunInvariant (withEnvironment v s) :=
  { h with reached := { h.reached with }, inRun := hv }

/-- Past the start of a pass the block is awake. -/
theorem awake_of_phase (h : RunInvariant s) (hp : 1 < s.phase.toNat) : s.asleep = false :=
  Bool.eq_false_iff.2 fun hs => absurd (h.asleepAtPassStart hs) (Nat.not_le.2 hp)

theorem ds_of_darkPhase (h : RunInvariant s) (hp : DarkPhase s.phase) : s.ds = 0b0000 :=
  h.reached.pinsReleased.2.2 (ne_of_darkPhase hp)

theorem digitsOf_valid (h : RunInvariant s) (d : Target) : (digitsOf s d).valid = true :=
  match d with
  | .clock => h.reached.digitsValid.1
  | .alarm => h.reached.digitsValid.2

theorem shown_valid (h : RunInvariant s) : (shown s).valid = true := by
  rw [shown_eq_digitsOf_target]
  exact digitsOf_valid h _

/-! ### The named updates keep the invariant -/

/-- From one dark phase to another, the loop not idle. -/
theorem runInvariant_setPhase {p : BitVec 4} (h : RunInvariant s) (hidle : s.idle = false) (hs : DarkPhase s.phase)
    (hp : DarkPhase p) (hnamed : p.toNat ≤ 9) (hstart : s.asleep = true → p.toNat ≤ 1) :
    RunInvariant (setPhase p s) := by
  have hds : s.ds = 0b0000 := ds_of_darkPhase h hs
  exact
    { h with
      reached :=
        { h.reached with
          idleAsleep := fun hi => absurd (hidle.symm.trans hi) Bool.false_ne_true
          pinsReleased := pinsReleased_of_darkPhase h.reached.pinsReleased.1 hds hp
          phaseNamed := hnamed }
      asleepAtPassStart := hstart }

theorem runInvariant_reloadCountdown (h : RunInvariant s) : RunInvariant (reloadCountdown s) :=
  { h with
    reached :=
      { h.reached with
        countersBounded := ⟨h.reached.countersBounded.1, h.reached.countersBounded.2.1, le_rfl⟩ } }

theorem runInvariant_silence (h : RunInvariant s) : RunInvariant (silence s) :=
  { h with
    reached :=
      { h.reached with
        idleAsleep := fun hi =>
          ⟨(h.reached.idleAsleep hi).1, (h.reached.idleAsleep hi).2.1, Bool.and_false s.sounding⟩ } }

theorem runInvariant_toggleSetting (h : RunInvariant s) (hawake : s.asleep = false) :
    RunInvariant (toggleSetting s) :=
  { h with
    reached :=
      { h.reached with
        blinkHeld := fun _ => rfl
        asleepNotSetting := fun hs => absurd (hawake.symm.trans hs) Bool.false_ne_true } }

theorem runInvariant_showAlarm (h : RunInvariant s) (hidle : s.idle = false) : RunInvariant (showAlarm s) :=
  { h with
    reached :=
      { h.reached with
        blinkHeld := fun _ => rfl
        asleepNotSetting := fun _ => rfl
        idleAsleep := fun hi => absurd (hidle.symm.trans hi) Bool.false_ne_true }
    asleepAtPassStart := fun hs => absurd hs Bool.false_ne_true }

theorem runInvariant_beginIdle (h : RunInvariant s) (hs : s.asleep = true) (hp : s.phase = 0)
    (ha : alarmActive s = false) : RunInvariant (beginIdle s) :=
  { h with reached := { h.reached with idleAsleep := fun _ => ⟨hs, hp, ha⟩ } }

/-- The slow sub-counter stays below K: it is cleared when it would reach it. -/
theorem slowCntAfterSet_lt (h : RunInvariant s) (r : Rate) :
    (slowCntAfterSet r s).toNat < s.params.slowDivisor.toNat := by
  obtain ⟨-, hslow, -⟩ := h.reached.countersBounded
  obtain ⟨-, -, hK⟩ := (wf_iff s.params).1 h.paramsInRange
  cases r
  case fast => exact hslow
  case slow =>
    rw [slowCntAfterSet]
    split
    case isTrue => exact hK
    case isFalse hnot => bv_omega

theorem runInvariant_countSet (h : RunInvariant s) (r : Rate) : RunInvariant (countSet r s) :=
  { h with
    reached :=
      { h.reached with
        countersBounded := ⟨h.reached.countersBounded.1, slowCntAfterSet_lt h r, h.reached.countersBounded.2.2⟩ } }

theorem runInvariant_writeDigits (h : RunInvariant s) (d : Target) {D : DigitSet} (hD : D.valid = true) :
    RunInvariant (writeDigits d D s) :=
  match d with
  | .clock => { h with reached := { h.reached with digitsValid := ⟨hD, h.reached.digitsValid.2⟩ } }
  | .alarm => { h with reached := { h.reached with digitsValid := ⟨h.reached.digitsValid.1, hD⟩ } }

theorem digitsAfterSet_valid (h : RunInvariant s) (d : Target) (r : Rate) : (digitsAfterSet d r s).valid = true := by
  rw [digitsAfterSet]
  split
  · exact bcdIncr_valid (digitsOf_valid h d)
  · exact digitsOf_valid h d

/-! ### The operations of a run keep the invariant -/

theorem runInvariant_ticked (h : RunInvariant s) : RunInvariant (ticked s) := by
  obtain ⟨hclock, halarm⟩ := h.reached.digitsValid
  obtain ⟨-, hslow, hcountdown⟩ := h.reached.countersBounded
  obtain ⟨hN, -, -⟩ := (wf_iff s.params).1 h.paramsInRange
  have hacc : (ticked s).tickAcc.toNat < s.params.ticksPerMinute.toNat := by
    rw [ticked_tickAcc]
    split
    case isTrue => exact hN
    case isFalse hnot =>
      have hshort := Nat.not_le.1 (mt (tickEndsMinute_iff s).2 hnot)
      rwa [toNat_tickAcc_succ hshort]
  have hdown : (ticked s).countdown.toNat ≤ s.params.autoOffTicks.toNat :=
    (toNat_countDown s.countdown).trans_le ((Nat.sub_le _ 1).trans hcountdown)
  exact
    { h with
      reached :=
        { h.reached with
          digitsValid := ⟨tickAdvanced_clock_valid hclock, halarm⟩
          countersBounded := ⟨hacc, hslow, hdown⟩
          blinkHeld := fun hset => congrArg (nextBlink · s.blinkPhase) hset
          idleAsleep := fun hi => absurd hi Bool.false_ne_true } }

theorem runInvariant_wakeEdge (h : RunInvariant s) : RunInvariant (wakeEdge s) := by
  rw [wakeEdge]
  split
  case isTrue hnoted =>
    exact
      { h with
        reached :=
          { h.reached with
            wakePendingArmed := fun hlatch _ => by
              have hlatch' : s.params.wakeLatch = false := hlatch
              rwa [hlatch', Bool.or_false] at hnoted } }
  case isFalse => exact h

theorem runInvariant_wakeIsr (h : RunInvariant s) : RunInvariant (wakeIsr s) :=
  { h with
    reached :=
      { h.reached with
        countersBounded := ⟨h.reached.countersBounded.1, h.reached.countersBounded.2.1, le_rfl⟩
        asleepNotSetting := fun hs => absurd hs Bool.false_ne_true
        idleAsleep := fun hi => absurd hi Bool.false_ne_true
        wakePendingArmed := fun _ hf => absurd hf Bool.false_ne_true }
    asleepAtPassStart := fun hs => absurd hs Bool.false_ne_true }

theorem slotCode_ne_all (i : Position) : slotCode i ≠ .all := by
  revert i
  decide

/-- The phase after STROBE i names the line it drives. -/
theorem strobePhase_succ_eq_iff (i j : Position) : strobePhase i + 1 = BitVec.ofNat 4 (3 + j.val) ↔ i = j := by
  revert i j
  decide

theorem runInvariant_strobe {i : Position} (h : RunInvariant s) (hp : s.phase = strobePhase i) (mask : SegMask) :
    RunInvariant (senseSlot i (driveSlot i mask s)) := by
  have hphase : s.phase.toNat = 2 + i.val := hp ▸ strobePhase_toNat i
  have hawake : s.asleep = false := awake_of_phase h (by omega)
  have hnamed : (s.phase + 1).toNat ≤ 9 := by bv_omega
  have hline (j : Position) : s.phase + 1 = BitVec.ofNat 4 (3 + j.val) ↔ i = j := by
    rw [hp]
    exact strobePhase_succ_eq_iff i j
  obtain ⟨hprev, hstable, hlast, hsig⟩ := h.reached.noSentinel
  have hsense : (if pinLevel .sense s then slotCode i else s.sweepSig) ≠ .all := by
    split
    · exact slotCode_ne_all i
    · exact hsig
  rw [senseSlot_driveSlot]
  exact
    { h with
      reached :=
        { h.reached with
          noSentinel := ⟨hprev, hstable, hlast, hsense⟩
          idleAsleep := fun hi => absurd (hawake.symm.trans (h.reached.idleAsleep hi).1) Bool.false_ne_true
          pinsReleased := ⟨rfl, fun j hj => congrArg onehot ((hline j).1 hj),
            fun hnone => absurd ((hline i).2 rfl) (hnone i)⟩
          phaseNamed := hnamed }
      asleepAtPassStart := fun hs => absurd (hawake.symm.trans hs) Bool.false_ne_true }

theorem runInvariant_sweepEnd (h : RunInvariant s) (hp : s.phase = 6) : RunInvariant (sweepEnd s) := by
  have hawake : s.asleep = false := awake_of_phase h (by rw [hp]; decide)
  obtain ⟨hprev, hstable, hlast, -⟩ := h.reached.noSentinel
  have hnone : ButtonCode.none ≠ .all := by decide
  have hdark : DarkPhase 7 := .inr (by decide)
  have hnamed : (7 : BitVec 4).toNat ≤ 9 := by decide
  exact
    { h with
      reached :=
        { h.reached with
          noSentinel := ⟨hprev, hstable, hlast, hnone⟩
          idleAsleep := fun hi => absurd (hawake.symm.trans (h.reached.idleAsleep hi).1) Bool.false_ne_true
          pinsReleased := pinsReleased_of_darkPhase h.reached.pinsReleased.1 rfl hdark
          phaseNamed := hnamed }
      asleepAtPassStart := fun hs => absurd (hawake.symm.trans hs) Bool.false_ne_true }

theorem debounceSample_ne_all (c : ButtonCode) : debounceSample c ≠ .all := by
  cases c <;> decide

theorem acceptedCode_ne_all (raw prev : ButtonCode) : acceptedCode raw prev ≠ .all := by
  rw [acceptedCode]
  split
  · exact debounceSample_ne_all raw
  · decide

theorem runInvariant_debounce (h : RunInvariant s) (hp : s.phase = 7) : RunInvariant (debounce s) := by
  have hawake : s.asleep = false := awake_of_phase h (by rw [hp]; decide)
  obtain ⟨-, -, -, hsig⟩ := h.reached.noSentinel
  have hds : s.ds = 0b0000 := ds_of_darkPhase h (hp ▸ .inr (by decide))
  have hdark : DarkPhase 8 := .inr (by decide)
  have hnamed : (8 : BitVec 4).toNat ≤ 9 := by decide
  exact
    { h with
      reached :=
        { h.reached with
          noSentinel := ⟨debounceSample_ne_all s.raw, acceptedCode_ne_all s.raw s.prev,
            acceptedCode_ne_all s.raw s.prev, hsig⟩
          stableIsPrev := fun hc => (samples_of_acceptedCode (raw := s.raw) (prev := s.prev) hc).1.symm
          idleAsleep := fun hi => absurd (hawake.symm.trans (h.reached.idleAsleep hi).1) Bool.false_ne_true
          pinsReleased := pinsReleased_of_darkPhase h.reached.pinsReleased.1 hds hdark
          phaseNamed := hnamed }
      asleepAtPassStart := fun hs => absurd (hawake.symm.trans hs) Bool.false_ne_true }

theorem runInvariant_dispatch (h : RunInvariant s) (hidle : s.idle = false) (hp : s.phase = 8) :
    RunInvariant (dispatch s).state := by
  have hawake : s.asleep = false := awake_of_phase h (by rw [hp]; decide)
  have moveOn {u : State} (hu : RunInvariant u) (hi : u.idle = false) (ha : u.asleep = false) (hphase : u.phase = 8) :
      RunInvariant (setPhase 9 u) :=
    runInvariant_setPhase hu hi (hphase ▸ .inr (by decide)) (.inr (by decide)) (by decide)
      fun hs => absurd (ha.symm.trans hs) Bool.false_ne_true
  have hreload := runInvariant_reloadCountdown h
  rcases dispatch_state_cases s with ⟨-, hd⟩ | ⟨-, hd⟩ | hd | hd | ⟨r, -, hd⟩ | ⟨hv, -⟩
  · rw [hd]
    exact moveOn h hidle hawake hp
  · rw [hd]
    exact moveOn (runInvariant_silence hreload) hidle hawake hp
  · rw [hd]
    exact moveOn hreload hidle hawake hp
  · rw [hd]
    exact moveOn (runInvariant_toggleSetting hreload hawake) hidle hawake hp
  · rw [hd]
    exact moveOn
      (runInvariant_writeDigits (runInvariant_countSet hreload r) _ (digitsAfterSet_valid hreload (target s) r))
      (by simp [hidle]) (by simp [hawake]) (by simp [hp])
  · exact absurd (digitsOf_valid h (target s)) (by simp [hv])

theorem runInvariant_autoOff (h : RunInvariant s) (hidle : s.idle = false) (hp : s.phase = 9) :
    RunInvariant (autoOff s) := by
  have hdark : DarkPhase s.phase := hp ▸ .inr (by decide)
  have hmoved : RunInvariant (setPhase 0 s) :=
    runInvariant_setPhase h hidle hdark (.inl (by decide)) (by decide) fun _ => by decide
  rcases autoOff_cases s with ⟨-, ho⟩ | ⟨-, ho⟩ <;> rw [ho]
  · exact
      { hmoved with
        reached :=
          { hmoved.reached with
            blinkHeld := fun _ => rfl
            asleepNotSetting := fun _ => rfl
            idleAsleep := fun hi => absurd (hidle.symm.trans hi) Bool.false_ne_true
            wakePendingArmed := fun _ _ => rfl }
        asleepAtPassStart := fun _ => Nat.zero_le 1 }
  · exact hmoved

theorem runInvariant_alarmService (h : RunInvariant s) (hidle : s.idle = false) (hp : s.phase = 0) :
    RunInvariant (alarmService s) := by
  have moveOn {u : State} (hu : RunInvariant u) (hi : u.idle = false) (hphase : u.phase = 0) :
      RunInvariant (setPhase 1 u) :=
    runInvariant_setPhase hu hi (hphase ▸ .inl (by decide)) (.inl (by decide)) (by decide) fun _ => le_rfl
  rcases alarmService_cases s with ⟨-, ha⟩ | ⟨-, ha⟩ <;> rw [ha]
  · exact moveOn (runInvariant_showAlarm h hidle) hidle hp
  · exact moveOn h hidle hp

theorem runInvariant_idleCheck (h : RunInvariant s) (hidle : s.idle = false) (hp : s.phase = 1) :
    RunInvariant (idleCheck s) := by
  have hdark : DarkPhase s.phase := hp ▸ .inl (by decide)
  have hback : RunInvariant (setPhase 0 s) :=
    runInvariant_setPhase h hidle hdark (.inl (by decide)) (by decide) fun _ => by decide
  rcases idleCheck_cases s with ⟨hs, ha, hc⟩ | ⟨-, -, hc⟩ | ⟨hs, hc⟩ <;> rw [hc]
  · exact runInvariant_beginIdle hback hs rfl ha
  · exact hback
  · exact runInvariant_setPhase h hidle hdark (.inl (by decide)) (by decide)
      fun ha => absurd (hs.symm.trans ha) Bool.false_ne_true

end Invariant

/-- Every operation of a run keeps the invariant where it is enabled. -/
theorem runInvariant_stateAfter {i : Instr} {s : State} (h : RunInvariant s) (hrun : i.performedInRun = true)
    (he : enabledIn i s = true) : RunInvariant (stateAfter i s) := by
  have atPhase {p : BitVec 4} (hp : phaseOf i = some p) : s.idle = false ∧ s.phase = p := by
    obtain ⟨-, hidle, hphase⟩ := (mainLoopEnabled_iff p s).1 (enabledIn_of_phaseOf hp s ▸ he)
    exact ⟨hidle, hphase⟩
  cases i
  case reset =>
    rw [stateAfter_reset]
    exact runInvariant_withEnvironment (runInvariant_reset h.paramsInRange) h.inRun
  case tick =>
    obtain ⟨hclock, halarm⟩ := h.reached.digitsValid
    rw [stateAfter, tick_of_valid hclock halarm]
    exact runInvariant_ticked h
  case wakeEdge => exact runInvariant_wakeEdge h
  case wakeIsr => exact runInvariant_wakeIsr h
  case strobe i =>
    obtain ⟨-, hp⟩ := atPhase rfl
    rcases strobe_cases i s with ⟨-, mask, -, hs⟩ | ⟨hv, -⟩
    · rw [stateAfter, hs]
      exact runInvariant_strobe h hp mask
    · exact absurd (shown_valid h) (by simp [hv])
  case sweepEnd => exact runInvariant_sweepEnd h (atPhase rfl).2
  case debounce => exact runInvariant_debounce h (atPhase rfl).2
  case dispatch => exact runInvariant_dispatch h (atPhase rfl).1 (atPhase rfl).2
  case autoOff => exact runInvariant_autoOff h (atPhase rfl).1 (atPhase rfl).2
  case alarmService => exact runInvariant_alarmService h (atPhase rfl).1 (atPhase rfl).2
  case idleCheck => exact runInvariant_idleCheck h (atPhase rfl).1 (atPhase rfl).2
  case minuteIncr => cases hrun
  case setIncr => cases hrun
  case evalAlarm => cases hrun

/-! ### Steps and runs -/

/-- The state an operation is performed in meets the invariant with the step's. -/
theorem runInvariant_performedFrom {s u : State} (h : RunInvariant s) (hu : performedFrom s u) : RunInvariant u := by
  rw [eq_withEnvironment_of_performedFrom hu]
  refine runInvariant_withEnvironment h ?_
  rw [hu]

/-- Settles O51: the operation a step performs is one of a run, since nothing is applied in isolation. -/
theorem everyStepKeepsTheRunInvariant : Obligations.EveryStepKeepsTheRunInvariant := by
  intro s t h ht
  obtain ⟨i, u, hu, he, rfl, hrun, -⟩ := step_next_inversion ht
  have hi : i.performedInRun = true := hrun.resolve_right (by simp [h.inRun])
  exact runInvariant_stateAfter (runInvariant_performedFrom h hu) hi he

theorem runInvariant_run {s t : State} {k : Nat} (h : RunInvariant s)
    (ht : Host.Core.run Sys2Proof.core k s = .next t) : RunInvariant t := by
  induction k generalizing s with
  | zero =>
    cases ht
    exact h
  | succ k ih =>
    obtain ⟨u, hu, hrest⟩ := run_succ_next_cases ht
    exact ih (everyStepKeepsTheRunInvariant s u h hu) hrest

/-- Settles O52: the invariant at reset and along every step. -/
theorem everyReachedStateMeetsTheTenClauses : Obligations.EveryReachedStateMeetsTheTenClauses := by
  intro p words levels k t hp ht
  have hstart := runInvariant_withEnvironment (v := { State.reset with schedule := words, levels := levels })
    (runInvariant_reset hp) rfl
  have h := runInvariant_run hstart ht
  exact ⟨h.reached, h.noFaultRecorded⟩

end Sys2Proof.Machine

/-! PROOFS. The pseudo-operation PASS (30_encoding.md section 3): every operation of a pass from the start of one is
performed, and the pass comes back to its start. -/

namespace Sys2Proof.Machine

open Sys2Proof

/-! ### The levels an operation takes -/

theorem stateAfter_levels_of_noPin {i : Instr} {s : State} (hi : pinRead i = none) :
    (stateAfter i s).levels = s.levels := by
  rw [stateAfter_eq_withWritesOf]
  cases i
  case strobe => cases hi
  case sweepEnd => cases hi
  all_goals rfl

theorem stateAfter_levels_of_pin {i : Instr} {s : State} (h : RunInvariant s) (hi : pinRead i ≠ none) :
    (stateAfter i s).levels = s.levels.tail := by
  cases i
  case strobe p =>
    rcases strobe_cases p s with ⟨-, mask, -, hs⟩ | ⟨hv, -⟩
    · rw [stateAfter, hs, completed_state, senseSlot_levels, driveSlot_levels]
    · exact absurd (shown_valid h) (by simp [hv])
  case sweepEnd => rfl
  all_goals exact absurd rfl hi

/-! ### Staying awake through a pass -/

/-- What keeps AUTO_OFF from entering Sleeping at the end of a pass: an active alarm, or the countdown that silencing it
reloads. -/
def StaysAwake (s : State) : Prop := s.asleep = false ∧ (alarmActive s = true ∨ s.countdown ≠ 0)

/-- An accepted code reloads the countdown, and without one DISPATCH changes only the phase. -/
theorem dispatch_countdown_cases (s : State) :
    (dispatch s).state = setPhase 9 s ∨ (dispatch s).state.countdown = s.params.autoOffTicks := by
  rcases dispatch_state_cases s with ⟨-, h⟩ | ⟨-, h⟩ | h | h | ⟨r, -, h⟩ | ⟨-, h⟩
  · exact .inl h
  all_goals exact .inr (by simp [h])

theorem autoOff_awake {s : State} (h : StaysAwake s) : (autoOff s).asleep = false := by
  obtain ⟨hawake, hkept⟩ := h
  have hnot : sleepDue s = false := by
    refine Bool.eq_false_iff.2 fun hdue => ?_
    obtain ⟨-, hzero, hquiet⟩ := (sleepDue_iff s).1 hdue
    exact hkept.elim (fun ha => hquiet ((alarmActive_iff s).1 ha)) fun hc => hc hzero
  rw [autoOff_asleep, hawake, hnot]
  rfl

/-- The operations of the main loop but AUTO_OFF keep the display awake while the alarm is active or the countdown runs. -/
theorem staysAwake_stateAfter {i : Instr} {s : State} (hi : agentOf i = .mainLoop) (hoff : i ≠ .autoOff)
    (hA : s.params.autoOffTicks ≠ 0) (h : StaysAwake s) : StaysAwake (stateAfter i s) := by
  have hreset : i ≠ .reset := by
    rintro rfl
    cases hi
  obtain ⟨hawake, hkept⟩ := h
  refine ⟨Bool.eq_false_iff.2 fun hs => hoff (asleep_raised hreset hs hawake), ?_⟩
  by_cases hd : i = .dispatch
  · subst hd
    rcases dispatch_countdown_cases s with hnext | hreload
    · rw [stateAfter, hnext]
      exact hkept
    · exact .inr (fun hzero => hA (hreload.symm.trans hzero))
  · have hcountdown : (stateAfter i s).countdown = s.countdown := by
      by_contra hne
      rcases countdown_writers hreset hne with rfl | rfl | rfl
      · cases hi
      · exact hd rfl
      · cases hi
    have hsounding : (stateAfter i s).sounding = s.sounding := by
      by_contra hne
      rcases sounding_writers hreset hne with rfl | rfl <;> cases hi
    have hsilenced : (stateAfter i s).silenced = s.silenced := by
      by_contra hne
      rcases silenced_writers hreset hne with rfl | rfl | rfl | rfl
      · cases hi
      · cases hi
      · exact hd rfl
      · cases hi
    rwa [alarmActive_congr hsounding hsilenced, hcountdown]

/-! ### The operations of a pass -/

/-- At phase `p` of a pass, with the words and levels still to come. -/
structure InPass (p : BitVec 4) (words : List Word) (levels : List Bool) (s : State) : Prop where
  invariant : RunInvariant s
  notIdle : s.idle = false
  atPhase : s.phase = p
  scheduled : s.schedule = words
  supplied : s.levels = levels

section Pass

variable {i : Instr} {p : BitVec 4} {words : List Word} {levels : List Bool} {s : State}

/-- The state an operation of a pass is performed in. -/
def popped (words : List Word) (s : State) : State := { s with schedule := words, isolated := false }

/-- The word of the phase's operation is performed and keeps the invariant. -/
theorem step_inPass (h : InPass p (encode i :: words) levels s) (hp : phaseOf i = some p) :
    step s = .next (stateAfter i (popped words s)) ∧ RunInvariant (stateAfter i (popped words s)) := by
  obtain ⟨hinv, hidle, hphase, hs, -⟩ := h
  have hrun : i.performedInRun = true := by cases i <;> cases hp <;> rfl
  have henabled : enabledIn i (popped words s) = true :=
    (enabledIn_of_phaseOf hp _).trans ((mainLoopEnabled_iff p _).2 ⟨hinv.noFaultRecorded, hidle, hphase⟩)
  exact ⟨(step_of_scheduled hs (decode_encode i) hrun).trans (exec_of_enabled henabled),
    runInvariant_stateAfter (runInvariant_withEnvironment (v := popped words s) hinv rfl) hrun henabled⟩

/-- The supplied levels after an operation. -/
def levelsAfter (i : Instr) (levels : List Bool) : List Bool :=
  match pinRead i with
  | some _ => levels.tail
  | none => levels

theorem stateAfter_levels {u : State} (hu : RunInvariant u) :
    (stateAfter i u).levels = levelsAfter i u.levels := by
  rw [levelsAfter]
  split
  next hpin => exact stateAfter_levels_of_pin hu (by simp [hpin])
  next hpin => exact stateAfter_levels_of_noPin hpin

/-- Every operation of a pass but IDLE_CHECK goes on to the next phase, with its word and its level taken. -/
theorem inPass_next (h : InPass p (encode i :: words) levels s) (hp : phaseOf i = some p) (hi : i ≠ .idleCheck) :
    InPass (nextPhase p) words (levelsAfter i levels) (stateAfter i (popped words s)) := by
  obtain ⟨-, hinv'⟩ := step_inPass h hp
  obtain ⟨hinv, hidle, hphase, -, hl⟩ := h
  have hreset : i ≠ .reset := by
    rintro rfl
    cases hp
  have hpopped : RunInvariant (popped words s) := runInvariant_withEnvironment (v := popped words s) hinv rfl
  exact
    { invariant := hinv'
      notIdle := Bool.eq_false_iff.2 fun hr => hi (idle_raised hreset hr hidle)
      atPhase := stateAfter_phase_of_noFault hp hi hphase hinv'.noFaultRecorded
      scheduled := stateAfter_schedule i _
      supplied := (stateAfter_levels hpopped).trans (congrArg (levelsAfter i) hl) }

/-- Awake, IDLE_CHECK goes on to the sweep. -/
theorem inPass_idleCheck (h : InPass 1 (encode .idleCheck :: words) levels s) (hawake : s.asleep = false) :
    InPass 2 words levels (stateAfter .idleCheck (popped words s)) := by
  obtain ⟨-, hinv⟩ := step_inPass h rfl
  have hstate : idleCheck (popped words s) = setPhase 2 (popped words s) := idleCheck_of_awake hawake
  rw [stateAfter, hstate] at hinv ⊢
  exact ⟨hinv, h.notIdle, rfl, rfl, h.supplied⟩

theorem staysAwake_inPass (h : InPass p words levels s) (hp : phaseOf i = some p) (hoff : i ≠ .autoOff)
    (rest : List Word) (hs : StaysAwake s) : StaysAwake (stateAfter i (popped rest s)) := by
  have hA : s.params.autoOffTicks ≠ 0 := fun hzero =>
    absurd ((wf_iff s.params).1 h.invariant.paramsInRange).2.1 (by simp [hzero])
  exact staysAwake_stateAfter (s := popped rest s) (agentOf_of_phaseOf hp) hoff hA hs

/-- Operations that stand at consecutive phases from `p` on, none of them IDLE_CHECK. -/
def ChainedFrom : BitVec 4 → List Instr → Prop
  | _, [] => True
  | p, i :: rest => phaseOf i = some p ∧ i ≠ .idleCheck ∧ ChainedFrom (nextPhase p) rest

/-- The phase after such operations. -/
def phaseAfter (p : BitVec 4) (ops : List Instr) : BitVec 4 := ops.foldl (fun q _ => nextPhase q) p

/-- Such operations are all performed, and take their words and levels; without AUTO_OFF among them they keep the display
awake. -/
theorem run_chained {ops : List Instr} (hops : ChainedFrom p ops) (h : InPass p (ops.map encode ++ words) levels s) :
    ∃ t, (∀ k, Host.Core.run Sys2Proof.core (k + ops.length) s = Host.Core.run Sys2Proof.core k t)
      ∧ InPass (phaseAfter p ops) words (ops.foldl (fun l i => levelsAfter i l) levels) t
      ∧ (StaysAwake s → .autoOff ∉ ops → StaysAwake t) := by
  induction ops generalizing p levels s with
  | nil => exact ⟨s, fun _ => rfl, h, fun hs _ => hs⟩
  | cons i rest ih =>
    obtain ⟨hp, hi, hrest⟩ := hops
    obtain ⟨hstep, -⟩ := step_inPass h hp
    obtain ⟨t, hrun, ht, hawake⟩ := ih hrest (inPass_next h hp hi)
    refine ⟨t, fun k => (run_succ_of_next _ hstep).trans (hrun k), ht, fun hs hoff => ?_⟩
    have hne : i ≠ .autoOff := (List.ne_of_not_mem_cons hoff).symm
    have hnot : .autoOff ∉ rest := List.not_mem_of_not_mem_cons hoff
    exact hawake (staysAwake_inPass h hp hne _ hs) hnot

end Pass

/-- The operations of a displayed pass between IDLE_CHECK and AUTO_OFF. -/
def displayedOperations : List Instr :=
  [.strobe 0, .strobe 1, .strobe 2, .strobe 3, .sweepEnd, .debounce, .dispatch]

theorem chainedFrom_displayedOperations : ChainedFrom 2 displayedOperations :=
  ⟨rfl, nofun, rfl, nofun, rfl, nofun, rfl, nofun, rfl, nofun, rfl, nofun, rfl, nofun, trivial⟩

theorem alarmActive_alarmService (s : State) : alarmActive (alarmService s) = alarmActive s := by
  rcases alarmService_cases s with ⟨-, h⟩ | ⟨-, h⟩ <;> rw [h] <;> rfl

/-- The state that is handed a pass stands at its start. -/
theorem inPass_withTrace {s : State} (h : RunInvariant s) (hp : s.phase = 0) (hidle : s.idle = false)
    (lines : List TraceLine) : InPass 0 (wordsOf lines) (levelsOf lines) (s.withTrace lines) :=
  ⟨runInvariant_withEnvironment (v := s.withTrace lines) h h.inRun, hidle, hp, rfl, rfl⟩

/-- The ten operations of a displayed pass: IDLE_CHECK finds the display awake, and an active alarm keeps it so. -/
theorem run_displayedPass {u : State} {words : List Word} {s0 s1 s2 s3 w : Bool}
    (h : InPass 0 (encode .alarmService :: encode .idleCheck :: (displayedOperations.map encode ++ encode .autoOff :: words))
      [s0, s1, s2, s3, w] u)
    (hshown : u.asleep = false ∨ alarmActive u = true) :
    ∃ t, Host.Core.run Sys2Proof.core 10 u = .next t ∧ InPass 0 words [] t
      ∧ (alarmActive u = true → t.asleep = false) := by
  obtain ⟨hserve, -⟩ := step_inPass h rfl
  have at1 := inPass_next h rfl nofun
  generalize hu1 : stateAfter .alarmService (popped _ u) = u1 at hserve at1
  have hawake1 : u1.asleep = false := by
    rw [← hu1, stateAfter, alarmService_asleep]
    rcases hshown with hs | ha
    · exact congrArg (· && _) hs
    · exact (congrArg (fun active => _ && !active) ha).trans (Bool.and_false _)
  have hstay1 (ha : alarmActive u = true) : StaysAwake u1 := by
    refine ⟨hawake1, .inl ?_⟩
    rw [← hu1, stateAfter, alarmActive_alarmService]
    exact ha
  obtain ⟨hcheck, -⟩ := step_inPass at1 rfl
  obtain ⟨v, hrun, at9, hstay⟩ := run_chained chainedFrom_displayedOperations (inPass_idleCheck at1 hawake1)
  obtain ⟨hoff, -⟩ := step_inPass at9 rfl
  refine ⟨_, (run_succ_of_next 9 hserve).trans ((run_succ_of_next 8 hcheck).trans ((hrun 1).trans
    (run_succ_of_next 0 hoff))), inPass_next at9 rfl nofun, fun ha => ?_⟩
  have hv : StaysAwake v := hstay (staysAwake_inPass (i := .idleCheck) at1 rfl nofun _ (hstay1 ha)) (by decide)
  exact autoOff_awake (s := popped words v) hv

/-- The two operations of the short pass, asleep with no active alarm. -/
theorem run_shortPass {u : State} {words : List Word} {levels : List Bool}
    (h : InPass 0 (encode .alarmService :: encode .idleCheck :: words) levels u) (hs : u.asleep = true)
    (ha : alarmActive u = false) :
    ∃ t, Host.Core.run Sys2Proof.core 2 u = .next t
      ∧ t.phase = 0 ∧ t.schedule = words ∧ t.idle = true ∧ t.asleep = true := by
  obtain ⟨hserve, -⟩ := step_inPass h rfl
  have at1 := inPass_next h rfl nofun
  rw [stateAfter, alarmService_of_quiet (s := popped _ u) ha] at hserve at1
  obtain ⟨hcheck, -⟩ := step_inPass at1 rfl
  let v := popped words (setPhase 1 (popped (encode .idleCheck :: words) u))
  have hasleep : v.asleep = true := hs
  have hwait : stateAfter .idleCheck v = setPhase 0 (beginIdle v) := idleCheck_of_quiet hasleep ha
  rw [hwait] at hcheck
  exact ⟨setPhase 0 (beginIdle v), (run_succ_of_next 1 hserve).trans (run_succ_of_next 0 hcheck), rfl, rfl, rfl,
    hasleep⟩

/-- Settles O53: the operations of a pass stand at consecutive phases, and each keeps the invariant. -/
theorem aPassComesBackToItsStart : Obligations.APassComesBackToItsStart := by
  intro s s0 s1 s2 s3 w h hp hidle
  refine ⟨fun hshown => ?displayed, fun hs ha => ?short⟩
  case displayed =>
    have at0 : InPass 0
        (encode .alarmService :: encode .idleCheck :: (displayedOperations.map encode ++ [encode .autoOff]))
        [s0, s1, s2, s3, w] _ := inPass_withTrace h hp hidle (passLines true s0 s1 s2 s3 w)
    obtain ⟨t, hrun, ht, hawake⟩ := run_displayedPass at0 hshown
    exact ⟨t, hrun, ht.atPhase, ht.scheduled, ht.supplied, ht.notIdle, ht.invariant, hawake⟩
  case short =>
    have at0 : InPass 0 [encode .alarmService, encode .idleCheck] [] _ :=
      inPass_withTrace h hp hidle (passLines false s0 s1 s2 s3 w)
    exact run_shortPass at0 hs ha

end Sys2Proof.Machine

/-! PROOFS. The state image (20_memory.md section 1): each byte reads back as the fields it was made of, and which images
describe no state. -/

namespace Sys2Proof.Machine

open Sys2Proof

/-! ### The fields of a byte -/

theorem highByte_append_lowByte (v : BitVec 16) : highByte v ++ lowByte v = v :=
  (BitVec.extractLsb'_append_extractLsb'_eq_extractLsb' rfl).trans BitVec.extractLsb'_eq_self

/-- The lowest bit of a byte made bit by bit. -/
theorem getLsbD_append_ofBool_zero {n : Nat} (x : BitVec n) (b : Bool) : (x ++ BitVec.ofBool b).getLsbD 0 = b := by
  rw [BitVec.getLsbD_append, if_pos Nat.zero_lt_one, BitVec.getLsbD_ofBool]
  rfl

/-- The bits above it are those of the rest. -/
theorem getLsbD_append_ofBool_succ {n : Nat} (x : BitVec n) (b : Bool) (k : Nat) :
    (x ++ BitVec.ofBool b).getLsbD (k + 1) = x.getLsbD k := by
  rw [BitVec.getLsbD_append, if_neg (by omega), Nat.add_sub_cancel]

/-- Packing a digit set and reading its nibbles gives it back (30_encoding.md R65). -/
theorem unpack_pack (D : DigitSet) : unpack (pack D) = D := by
  have hmu : (pack D).extractLsb' 0 4 = D.minuteUnits := BitVec.extractLsb'_append_eq_right
  have hmt : (pack D).extractLsb' 4 4 = D.minuteTens :=
    (BitVec.extractLsb'_append_eq_of_le (by decide)).trans BitVec.extractLsb'_append_eq_right
  have hhu : (pack D).extractLsb' 8 4 = D.hourUnits :=
    (BitVec.extractLsb'_append_eq_of_le (by decide)).trans
      ((BitVec.extractLsb'_append_eq_of_le (by decide)).trans BitVec.extractLsb'_append_eq_right)
  have hht : (pack D).extractLsb' 12 4 = D.hourTens :=
    (BitVec.extractLsb'_append_eq_of_le (by decide)).trans
      ((BitVec.extractLsb'_append_eq_of_le (by decide)).trans BitVec.extractLsb'_append_eq_left)
  rw [unpack, hmu, hmt, hhu, hht]

section Bytes

variable (s : State)

theorem flagsByte_bits :
    (flagsByte s).getLsbD 0 = s.sounding ∧ (flagsByte s).getLsbD 1 = s.silenced
      ∧ (flagsByte s).getLsbD 2 = s.blinkPhase ∧ (flagsByte s).getLsbD 3 = s.asleep
      ∧ (flagsByte s).getLsbD 4 = s.settingAlarm ∧ (flagsByte s).getLsbD 5 = s.wakeIE
      ∧ (flagsByte s).getLsbD 6 = s.wakeFlag ∧ (flagsByte s).getLsbD 7 = s.idle := by
  simp only [flagsByte, getLsbD_append_ofBool_zero, getLsbD_append_ofBool_succ, BitVec.getLsbD_ofBool, true_and]
  rfl

theorem btn0Byte_raw : (btn0Byte s).extractLsb' 0 3 = buttonBits s.raw := BitVec.extractLsb'_append_eq_right

theorem btn0Byte_sweepSig : (btn0Byte s).extractLsb' 3 3 = buttonBits s.sweepSig :=
  (BitVec.extractLsb'_append_eq_of_le (by decide)).trans BitVec.extractLsb'_append_eq_right

theorem btn0Byte_edge : (btn0Byte s).getLsbD 6 = s.edge := by
  rw [btn0Byte, BitVec.getLsbD_append, if_neg (by decide), BitVec.getLsbD_append, if_neg (by decide)]
  exact getLsbD_append_ofBool_zero _ _

theorem btn1Byte_prev : (btn1Byte s).extractLsb' 0 3 = buttonBits s.prev := BitVec.extractLsb'_append_eq_right

theorem btn1Byte_stable : (btn1Byte s).extractLsb' 3 3 = buttonBits s.stable :=
  (BitVec.extractLsb'_append_eq_of_le (by decide)).trans BitVec.extractLsb'_append_eq_right

theorem btn2Byte_lastStable : (btn2Byte s).extractLsb' 0 3 = buttonBits s.lastStable :=
  BitVec.extractLsb'_append_eq_right

theorem seqByte_phase : (seqByte s).extractLsb' 0 4 = s.phase := BitVec.extractLsb'_append_eq_right

theorem outByte_ds : (outByte s).extractLsb' 0 4 = s.ds := BitVec.extractLsb'_append_eq_right

theorem outByte_segsel : (outByte s).extractLsb' 4 3 = s.segsel :=
  (BitVec.extractLsb'_append_eq_of_le (by decide)).trans BitVec.extractLsb'_append_eq_right

end Bytes

theorem buttonOfBits_buttonBits (c : ButtonCode) : buttonOfBits (buttonBits c) = some c := by
  cases c <;> rfl

theorem phaseOfByte_seqByte {s : State} (h : s.phase.toNat ≤ 9) : phaseOfByte (seqByte s) = some s.phase := by
  rw [phaseOfByte, seqByte_phase, if_pos h]

/-- The FAULT byte holds which set was invalid; the reader supplies the operation. -/
theorem faultOfByte_faultByte {s : State} {op : Raiser} (h : ∀ r, s.fault = some r → r.op = op) :
    faultOfByte op (faultByte s) = some s.fault := by
  unfold faultByte
  cases hf : s.fault with
  | none => rfl
  | some r =>
    obtain rfl := h r hf
    obtain ⟨which, op⟩ := r
    cases which <;> rfl

/-- Settles O55: each field of the image is read from the bits it was written to. -/
theorem stateImageReadsBack : Obligations.StateImageReadsBack := by
  intro s base op hphase hop
  obtain ⟨h0, h1, h2, h3, h4, h5, h6, h7⟩ := flagsByte_bits s
  simp only [ofImage, image, btn0Byte_raw, btn0Byte_sweepSig, btn0Byte_edge, btn1Byte_prev, btn1Byte_stable,
    btn2Byte_lastStable, outByte_ds, outByte_segsel, buttonOfBits_buttonBits, phaseOfByte_seqByte hphase,
    faultOfByte_faultByte hop, highByte_append_lowByte, unpack_pack, h0, h1, h2, h3, h4, h5, h6, h7,
    Option.bind_eq_bind, Option.bind_some]

/-! ### Images of no state -/

/-- A reading that goes on in the same way whatever it has read fails where it fails first or later. -/
theorem bind_eq_none_iff_or {α β : Type} {x : Option α} {f : α → Option β} {P : Prop} (h : ∀ a, f a = none ↔ P) :
    (x >>= f) = none ↔ x = none ∨ P := by
  cases x <;> simp [h]

theorem buttonOfBits_eq_none_iff (v : BitVec 3) : buttonOfBits v = none ↔ v = 0b101 ∨ v = 0b110 := by
  revert v
  decide

theorem phaseOfByte_eq_none_iff (b : Word) : phaseOfByte b = none ↔ 10 ≤ (b.extractLsb' 0 4).toNat := by
  rw [phaseOfByte, ite_eq_right_iff]
  simp only [reduceCtorEq, imp_false]
  omega

theorem faultOfByte_eq_none_iff (op : Raiser) (b : Word) : faultOfByte op b = none ↔ 3 ≤ b.toNat := by
  rw [faultOfByte]
  split
  case isTrue h => simp [h]
  case isFalse h0 =>
    split
    case isTrue h => simp [h]
    case isFalse h1 =>
      split
      case isTrue h => simp [h]
      case isFalse h2 =>
        simp only [true_iff]
        bv_omega

/-- Settles O56: the reader fails at a button field, at the phase or at the FAULT byte, and nowhere else. -/
theorem imagesOfNoStateAreRefused : Obligations.ImagesOfNoStateAreRefused := by
  intro op base c0 c1 a0 a1 fl cd t0 t1 sc b0 b1 b2 sq out fb z reserved
  simp only [reserved, ← buttonOfBits_eq_none_iff, ← phaseOfByte_eq_none_iff, ← faultOfByte_eq_none_iff op]
  refine bind_eq_none_iff_or fun _ => bind_eq_none_iff_or fun _ => bind_eq_none_iff_or fun _ =>
    bind_eq_none_iff_or fun _ => bind_eq_none_iff_or fun _ => bind_eq_none_iff_or fun _ => ?_
  refine (bind_eq_none_iff_or (P := False) fun _ => ?_).trans (Iff.of_eq (or_false _))
  simp only [reduceCtorEq]

end Sys2Proof.Machine
